-- ==== Sys2Proof/Word.lean ====
section
/-! DEFINITION. The words, positions and small index types of the GT416, and the plainest helpers over them. -/

namespace Sys2Proof

/-- A 16-bit word of the host bus (section 10.1). -/
abbrev Word := BitVec 16

/-- A 32-bit belt position (conventions of 00_scope.md, R5). -/
abbrev Pos := BitVec 32

/-- The number that names an item, 0 meaning "no item" (R37). -/
abbrev Tag := BitVec 16

/-- A 24-bit belt distance, 0 to 16,777,215 counts (00_scope.md, capacities). -/
abbrev Distance := BitVec 24

/-- The level of a pin: `true` is high. -/
abbrev Level := Bool

/-- Lane 0 to 3. -/
abbrev LaneId := Fin 4

/-- Station 0 to 15. -/
abbrev StationId := Fin 16

/-- Output line OUT0 to OUT15. -/
abbrev OutputId := Fin 16

/-- Confirm input CFM0 to CFM3. -/
abbrev InputId := Fin 4

/-- The four lanes, in ascending order. -/
def laneIds : List LaneId := [0, 1, 2, 3]

/-- The sixteen stations (and output lines), in ascending order. -/
def stationIds : List StationId := [0, 1, 2, 3, 4, 5, 6, 7, 8, 9, 10, 11, 12, 13, 14, 15]

/-- Element `i` of `v` replaced by `f` of it. -/
def upd {α : Type} {n : Nat} (v : Vector α n) (i : Fin n) (f : α → α) : Vector α n :=
  v.set i (f v[i])

/-- Every element of `v` replaced by `f` of it. -/
def mapAll {α : Type} {n : Nat} (f : α → α) (v : Vector α n) : Vector α n :=
  ⟨⟨v.toArray.toList.map f⟩, by simp⟩

/-- The low half of a 32-bit position. -/
def lo (p : Pos) : Word := p.extractLsb' 0 16

/-- The high half of a 32-bit position. -/
def hi (p : Pos) : Word := p.extractLsb' 16 16

/-- The 32-bit value of two words, low half first. -/
def joinWords (low high : Word) : Pos := high ++ low

/-- A 24-bit distance as a 32-bit value. -/
def wide (d : Distance) : Pos := d.zeroExtend 32

/-- A truth value as a one-bit field of a 16-bit word at bit `n`. -/
def flagBit (n : Nat) (b : Bool) : Word := if b then BitVec.twoPow 16 n else 0#16

/-- A number placed at bit `n` of a 16-bit word. -/
def fieldAt (n v : Nat) : Word := BitVec.ofNat 16 (v * 2 ^ n)

/-- One bit per index for which `p` holds: bit i for index i. -/
def maskOf (ids : List (Fin 16)) (p : Fin 16 → Bool) : Word :=
  ids.foldl (fun w i => w ||| flagBit i.val (p i)) 0#16

end Sys2Proof
end

