-- ==== Sys2Proof/Syntax.lean ====
section
/-! DEFINITION. The commands the part takes: one constructor for each row of spec/opcode_table.json. -/

namespace Sys2Proof

/-- The steps of the part. A completion row (SET_GLOBAL to UNKNOWN_COMMAND) has no operand: it reads the
parameter copy taken at acceptance (R171, R185). Pin events carry the new level of the pin. -/
inductive Instr where
  /-- POWER_APPLIED (R150). -/
  | powerApplied
  /-- POWER_ON_RESET_END (R150). -/
  | powerOnResetEnd
  /-- RESET_N_ASSERT (R149). -/
  | resetNAssert
  /-- RESET_N_RELEASE (R149). -/
  | resetNRelease
  /-- ENCODER_TRANSITION (R1, R2): the pair of levels of ENC_A and ENC_B after the change. -/
  | encoderTransition (a b : Level)
  /-- TIME_PULSE_END (R103): the station whose time pulse reaches 0. -/
  | timePulseEnd (station : StationId)
  /-- WATCH_EXPIRY (R129): the station whose head watch reaches 0. -/
  | watchExpiry (station : StationId)
  /-- CONFIRM_EDGE (R126): the confirm input, and whether the edge is rising. -/
  | confirmEdge (input : InputId) (rising : Bool)
  /-- DET_INPUT_CHANGE (R20): the lane and the new level of its DET pin. -/
  | detInputChange (lane : LaneId) (level : Level)
  /-- HLD_ASSERT (R144). -/
  | hldAssert
  /-- HLD_RELEASE (R144). -/
  | hldRelease
  /-- CMD_WRITE (R171): the word written to CMD. -/
  | cmdWrite (value : Word)
  /-- SET_GLOBAL completes (R178). -/
  | setGlobal
  /-- GET_GLOBAL completes (R179). -/
  | getGlobal
  /-- SET_LANE completes (R16). -/
  | setLane
  /-- GET_LANE completes (R17). -/
  | getLane
  /-- SET_STATION completes (R87). -/
  | setStation
  /-- GET_STATION completes (R88). -/
  | getStation
  /-- SET_OUTPUT completes (R108). -/
  | setOutput
  /-- FORCE_OUTPUT completes (R118). -/
  | forceOutput
  /-- PRESET_POSITION completes (R6). -/
  | presetPosition
  /-- START completes (R137). -/
  | start
  /-- STOP completes (R138). -/
  | stop
  /-- HALT completes (R139). -/
  | halt
  /-- RESUME completes (R146). -/
  | resume
  /-- DECIDE completes (R47). -/
  | decideItem
  /-- CANCEL completes (R56). -/
  | cancel
  /-- QUERY_ITEM completes (R58). -/
  | queryItem
  /-- STATION_ENABLE completes (R92 to R94). -/
  | stationEnable
  /-- READ_COUNTS completes (R180). -/
  | readCounts
  /-- READ_LANE_COUNTERS completes (R33). -/
  | readLaneCounters
  /-- REINIT completes (R148). -/
  | reinit
  /-- A code that is not in the command table completes (R177). -/
  | unknownCommand
  /-- A read of POS_LOW (R13). -/
  | posLowRead
  /-- A read of TRACK_LOW (R13). -/
  | trackLowRead
  /-- A read of EVENT_DATA (R157). -/
  | eventDataRead
  /-- A write to EVENT_DATA (R158). -/
  | eventDataWrite (value : Word)
  /-- A write to INT_STATUS (R161). -/
  | intStatusWrite (value : Word)
  /-- A write to INT_ENABLE (R162). -/
  | intEnableWrite (value : Word)
  /-- A write to EVENT_THRESHOLD (R160). -/
  | eventThresholdWrite (value : Word)
  /-- A write to STATUS (R168). -/
  | statusWrite (value : Word)
  /-- A write to any other register (R174): the number on A1 to A5, and the word. -/
  | registerWrite (register : BitVec 5) (value : Word)
  /-- POWER_LOSS (R150). -/
  | powerLoss
  deriving DecidableEq, Repr

end Sys2Proof
end

