-- ==== Sys2Proof/Decode.lean ====
section
/-! DEFINITION. The command a word spells by the bits of spec/opcode_table.json. No row of the table gives
bits (the part has no instruction encoding; its commands are bus cycles, pin events and completions), so no
word spells a command. -/

namespace Sys2Proof

/-- The command spelled by the low `nbits` bits of `w`: none, since no row of the table has bits
(notes/assumptions/1.md). -/
def decodeTableWord (_nbits _w : Nat) : Option Instr := none

end Sys2Proof
end

