-- ==== Sys2Proof/Config.lean ====
section
/-! DEFINITION. What one part fixes: its capacities and identity, and the one free value of the model. -/

namespace Sys2Proof.Config

/-- Item records in the pool (R35). -/
def itemRecords : Nat := 64

/-- Slots of the action list (R66). -/
def listSlots : Nat := 192

/-- Records the event queue holds (R155). -/
def eventRecords : Nat := 32

/-- Watches a station's watch queue holds (R124). -/
def watchDepth : Nat := 4

/-- The ID register (R167). -/
def idWord : BitVec 16 := 0x4716#16

/-- The REVISION register (R167). -/
def revisionWord : BitVec 16 := 0x0003#16

/-- FREE VALUE (notes/assumptions/2.md). Where several blocks of the part have work at the same moment and
the manual leaves open which of them is taken first (R27, R41, R78, R80, R129), the n-th such choice is
`choice n`; nothing is known of it. -/
opaque choice : Nat → Nat

end Sys2Proof.Config
end

