-- ==== Sys2Proof/Machine/State.lean ====
section
/-! DEFINITION. The state of the part, block by block as 00_scope.md lists the blocks, as plain data, and its
value after power-on reset. What the manual defines as a function of other state (the reverse amount, the
blanked condition, holder counts, line levels, STATUS, HALT_CAUSE, EVENT_COUNT, INT_N, the OUT pins) is
computed, in Ops.lean and Flags.lean, and not stored twice (notes/assumptions/8.md). -/

namespace Sys2Proof.Machine

/-! ### The position unit (Chapter 1) -/

/-- Encoder mode (R1, R2). -/
inductive EncoderMode where
  | quad
  | pulseDir
  deriving DecidableEq, Repr

/-- State of the position unit (section 1.1). The reverse amount is `State.reverse`. -/
structure PositionUnit where
  /-- position counter (R5) -/
  counter : Pos
  /-- tracking position (R7, R8) -/
  tracking : Pos
  /-- encoder mode (R3) -/
  mode : EncoderMode
  /-- direction invert (R3) -/
  invert : Bool
  /-- reverse tolerance (R11) -/
  tolerance : Word
  /-- encoder error count (R4) -/
  errors : Word
  /-- decoder reference, ENC_A (R1) -/
  refA : Level
  /-- decoder reference, ENC_B (R1) -/
  refB : Level
  /-- POS_HIGH latch (R13) -/
  posHigh : Word
  /-- TRACK_HIGH latch (R13) -/
  trackHigh : Word
  deriving DecidableEq, Repr

/-- Section 1.7, first two columns; the decoder reference is the levels at the end of the reset. -/
def PositionUnit.reset (a b : Level) : PositionUnit :=
  { counter := 0, tracking := 0, mode := .quad, invert := false, tolerance := 16, errors := 0,
    refA := a, refB := b, posHigh := 0, trackHigh := 0 }

/-! ### The lane detectors (Chapter 2) -/

/-- A verdict the part or the host can give. -/
inductive Decision where
  | pass
  | reject
  deriving DecidableEq, Repr

/-- Verdict of an item (section 3.1). -/
inductive Verdict where
  | undecided
  | pass
  | reject
  deriving DecidableEq, Repr

/-- Who set the verdict (section 3.1). -/
inductive Source where
  | none
  | host
  | default
  | forced
  deriving DecidableEq, Repr

/-- Size policy of a lane (R29). -/
inductive SizePolicy where
  | flag
  | reject
  deriving DecidableEq, Repr

/-- Overflow policy of a lane (R24). -/
inductive OverflowPolicy where
  | drop
  | halt
  deriving DecidableEq, Repr

/-- Configuration fields of a lane (section 2.1). -/
structure LaneConfig where
  enabled : Bool
  activeLow : Bool
  filter : BitVec 8
  minPitch : Word
  minLength : Word
  maxLength : Distance
  decision : Distance
  exit : Distance
  defaultVerdict : Decision
  defaultClass : Fin 16
  sizePolicy : SizePolicy
  overflow : OverflowPolicy
  deriving DecidableEq, Repr

/-- Defaults of section 2.1. -/
def LaneConfig.reset : LaneConfig :=
  { enabled := false, activeLow := false, filter := 4, minPitch := 0, minLength := 0, maxLength := 0,
    decision := 200, exit := 1000, defaultVerdict := .reject, defaultClass := 0, sizePolicy := .flag,
    overflow := .drop }

/-- Detector state with what the lane holds in it (section 2.2). -/
inductive Detector where
  | off
  | waitClear
  | clear
  /-- the capture position -/
  | filtering (capture : Pos)
  /-- the open-item link and the trailing candidate, each present or absent -/
  | occupied (link : Option Tag) (candidate : Option Pos)
  deriving DecidableEq, Repr

/-- The ten lane counters (R32). -/
structure LaneCounters where
  leading : Word
  glitches : Word
  pitchIgnored : Word
  admitted : Word
  refused : Word
  retired : Word
  cancelled : Word
  forcedRejects : Word
  defaults : Word
  noTrailing : Word
  deriving DecidableEq, Repr

/-- All ten counters at 0. -/
def LaneCounters.zero : LaneCounters :=
  { leading := 0, glitches := 0, pitchIgnored := 0, admitted := 0, refused := 0, retired := 0, cancelled := 0,
    forcedRejects := 0, defaults := 0, noTrailing := 0 }

/-- One lane. -/
structure Lane where
  config : LaneConfig
  detector : Detector
  /-- previous leading position, or absent (R22) -/
  previous : Option Pos
  counters : LaneCounters
  deriving DecidableEq, Repr

/-- Section 2.8, first two columns. -/
def Lane.reset : Lane :=
  { config := .reset, detector := .off, previous := none, counters := .zero }

/-! ### The tracking queue (Chapter 3) -/

/-- An item record (section 3.1). -/
structure Item where
  tag : Tag
  lane : LaneId
  leading : Pos
  trailing : Option Pos
  length : Option Pos
  verdict : Verdict
  source : Source
  reason : BitVec 8
  cls : Fin 16
  final : Bool
  short : Bool
  long : Bool
  noTrailing : Bool
  missed : Bool
  confirmFail : Bool
  /-- fired mask: bit n marks station n -/
  fired : Word
  deriving DecidableEq, Repr

/-- The tracking queue: the live items in admission order (R42) and the tag generator (R37). The free
records of the pool hold nothing (R35). -/
structure TrackingQueue where
  items : List Item
  nextTag : Tag
  deriving DecidableEq, Repr

/-- Section 3.12, first two columns. -/
def TrackingQueue.reset : TrackingQueue := { items := [], nextTag := 1 }

/-! ### The action list (Chapter 4) -/

/-- Entry kind with the fields present in it (section 4.1). -/
inductive EntryKind where
  | off (station : StationId) (rekeyable : Bool)
  | deadline
  | on (station : StationId)
  | retire
  deriving DecidableEq, Repr

/-- An entry of the list, with the reached mark of R81. -/
structure Entry where
  kind : EntryKind
  fire : Pos
  tag : Tag
  reached : Bool
  deriving DecidableEq, Repr

/-- The action list: its entries in list order (R65) and the firing point (section 4.2). Reservations are the
ON entries (R66). -/
structure ActionList where
  entries : List Entry
  firingPoint : Pos
  deriving DecidableEq, Repr

/-- Section 4.8, first two columns. -/
def ActionList.reset : ActionList := { entries := [], firingPoint := 0 }

/-! ### The stations (Chapter 5) with their watch queues (Chapter 7) -/

/-- Selector of a station (R98). -/
inductive Selector where
  | any
  | pass
  | reject
  deriving DecidableEq, Repr

/-- Pulse mode of a station (section 5.5). -/
inductive PulseMode where
  | count
  | time
  | item
  deriving DecidableEq, Repr

/-- Configuration fields of a station (section 5.1). -/
structure StationConfig where
  enabled : Bool
  lane : LaneId
  offset : Distance
  selector : Selector
  classMask : Word
  mode : PulseMode
  /-- pulse length, or tail offset in ITEM mode -/
  pulseWord : Word
  /-- cap of an ITEM-mode pulse -/
  capWord : Word
  output : OutputId
  confirm : Option InputId
  /-- confirm edge: falling rather than rising -/
  falling : Bool
  window : Word
  missLimit : BitVec 4
  deriving DecidableEq, Repr

/-- Defaults of section 5.1. -/
def StationConfig.reset : StationConfig :=
  { enabled := false, lane := 0, offset := 500, selector := .any, classMask := 0xFFFF, mode := .count,
    pulseWord := 50, capWord := 0, output := 0, confirm := none, falling := false, window := 10000,
    missLimit := 3 }

/-- Runtime state of a station (section 5.3). -/
inductive Runtime where
  | disabled
  | enabled
  | failed
  deriving DecidableEq, Repr

/-- A watch (section 7.2). -/
structure Watch where
  tag : Tag
  lane : LaneId
  timeLeft : Word
  deriving DecidableEq, Repr

/-- A running time pulse (R102). -/
structure TimePulse where
  /-- its time left -/
  left : Word
  /-- MODEL: the tracking position at which an activation last set the time left back, until a tick: the end of the
  time it replaced may still be taken at that moment (R104, notes/assumptions/3.md) -/
  reloaded : Option Pos
  deriving DecidableEq, Repr

/-- One station. -/
structure Station where
  config : StationConfig
  runtime : Runtime
  /-- the time pulse: stopped, or running (R102) -/
  pulse : Option TimePulse
  /-- miss count, 0 to 15 (R131) -/
  misses : BitVec 4
  /-- stray count (R127) -/
  strays : Word
  /-- watch queue, oldest first (R124) -/
  watches : List Watch
  deriving DecidableEq, Repr

/-- Sections 5.7 and 7.8, first two columns. -/
def Station.reset : Station :=
  { config := .reset, runtime := .disabled, pulse := none, misses := 0, strays := 0, watches := [] }

/-! ### The output lines (Chapter 6) -/

/-- Fault action of an output line (R114). -/
inductive FaultAction where
  | off
  | hold
  deriving DecidableEq, Repr

/-- Forced state of an output line (R118). -/
inductive Forced where
  | none
  | inactive
  | active
  deriving DecidableEq, Repr

/-- One output line. Its holder count is `State.holders` (R110) and its line level `State.lineActive` (R112). -/
structure OutputLine where
  activeLow : Bool
  fault : FaultAction
  forced : Forced
  /-- held level, or absent (R114) -/
  held : Option Bool
  deriving DecidableEq, Repr

/-- Section 6.6, first two columns. -/
def OutputLine.reset : OutputLine := { activeLow := false, fault := .off, forced := .none, held := none }

/-! ### The event queue (Chapter 9) -/

/-- Event kinds (section 9.1). -/
inductive EventKind where
  | itemAdmitted
  | itemRefused
  | itemLength
  | itemJam
  | verdictDefaulted
  | itemRetired
  | itemCancelled
  | actionMissed
  | confirmMissing
  | stationFailed
  | halted
  | resumed
  | eventsLost
  deriving DecidableEq, Repr

/-- An event record (section 9.1, layout of section 10.4). -/
structure EventRecord where
  kind : EventKind
  unit : BitVec 4
  /-- w0 bits 3 to 0 -/
  low : BitVec 4
  tag : Tag
  position : Pos
  auxA : Word
  auxB : Word
  deriving DecidableEq, Repr

/-- The event queue: records head first, the word index (R157), the event mask (R154), the threshold (R160). -/
structure EventQueue where
  records : List EventRecord
  index : Fin 6
  /-- event mask: bit k - 1 masks kind k -/
  mask : BitVec 9
  threshold : BitVec 6
  deriving DecidableEq, Repr

/-- R164, first two columns. -/
def EventQueue.reset : EventQueue := { records := [], index := 0, mask := 0, threshold := 1 }

/-! ### Operating control (Chapter 8) -/

/-- Operating state (R136). -/
inductive OpState where
  | setup
  | tracking
  | halted
  deriving DecidableEq, Repr

/-- Halt causes (section 8.3). -/
inductive Cause where
  | holdInput
  | overReverse
  | encoder
  | queueFull
  | stationFail
  | host
  deriving DecidableEq, Repr

/-- Operating control. -/
structure Control where
  op : OpState
  /-- first cause, or none (R142) -/
  firstCause : Option Cause
  /-- cause mask: bit n - 1 for cause n (R169) -/
  causeMask : BitVec 6
  /-- the latest sample of HLD: asserted (R144) -/
  hldAsserted : Bool
  /-- halt requests on their way to operating control (R15, R34, R140, R143), in the order they were raised; none waits
  once no command waits (notes/assumptions/10.md) -/
  requests : List Cause
  deriving DecidableEq, Repr

/-- R142 and R149: SETUP, no cause; the HLD level as sampled at the end of the reset. -/
def Control.reset (asserted : Bool) : Control :=
  { op := .setup, firstCause := none, causeMask := 0, hldAsserted := asserted, requests := [] }

/-! ### The command interface (Chapter 10) -/

/-- Result codes (section 10.6). -/
inductive ResultCode where
  | done
  | badCommand
  | badState
  | badParam
  | notFound
  | tooLate
  | locked
  | configError
  | haltActive
  deriving DecidableEq, Repr

/-- The register window and the command protocol. -/
structure HostInterface where
  /-- command state: BUSY rather than READY (R171) -/
  busy : Bool
  /-- last code, the code in flight while BUSY (R171) -/
  lastCode : BitVec 8
  /-- the command's own parameter copy (R171) -/
  copy : Vector Word 8
  /-- CMD_OVERRUN (R173) -/
  overrun : Bool
  /-- RESULT_CODE -/
  resultCode : ResultCode
  /-- RESULT0 to RESULT5 -/
  results : Vector Word 6
  /-- PARAM0 to PARAM7 -/
  params : Vector Word 8
  /-- INT_STATUS: bit 0 CMD, 1 EVT, 2 HALT, 3 LOST (R161) -/
  intStatus : BitVec 4
  /-- INT_ENABLE, same bits (R162) -/
  intEnable : BitVec 4
  /-- POWER_ON flag (R150) -/
  powerOn : Bool
  deriving DecidableEq, Repr

/-- R176, R164 and section 10.10; the POWER_ON flag is given, being the one difference between the resets. -/
def HostInterface.reset (powerOn : Bool) : HostInterface :=
  { busy := false, lastCode := 0, copy := .replicate 8 0, overrun := false, resultCode := .done,
    results := .replicate 6 0, params := .replicate 8 0, intStatus := 0, intEnable := 0, powerOn := powerOn }

/-! ### The clock -/

/-- The tick divider and HALT_ON_FAIL (section 10.8), and how many CLKIN periods of the present tick have
passed (R178). -/
structure Globals where
  tickDiv : BitVec 8
  tickPhase : BitVec 8
  haltOnFail : Bool
  deriving DecidableEq, Repr

/-- Defaults of section 10.8; the divider at the start of a tick (notes/assumptions/7.md). -/
def Globals.reset : Globals := { tickDiv := 16, tickPhase := 0, haltOnFail := false }

/-! ### The pins and the supply -/

/-- The levels at the input pins of the part, whether or not it samples them. -/
structure Pins where
  encA : Level
  encB : Level
  det : Vector Level 4
  cfm : Vector Level 4
  hld : Level
  resetN : Level
  deriving DecidableEq, Repr

/-- The supply (R150): absent, applied with power-on reset still running, or stable. -/
inductive Power where
  | off
  | starting
  | on
  deriving DecidableEq, Repr

/-! ### The whole part -/

/-- The state of the GT416, and what is the model's own: `readData`, `choices`, `pending`, and `TimePulse.reloaded`. -/
structure State where
  power : Power
  pins : Pins
  position : PositionUnit
  lanes : Vector Lane 4
  queue : TrackingQueue
  list : ActionList
  stations : Vector Station 16
  outputs : Vector OutputLine 16
  /-- sample reference of CFM0 to CFM3 (R122) -/
  cfmRef : Vector Level 4
  events : EventQueue
  control : Control
  host : HostInterface
  globals : Globals
  /-- MODEL: the word the last modelled read cycle returned on D0 to D15 (notes/assumptions/11.md) -/
  readData : Word
  /-- MODEL: how many free choices of order have been made (notes/assumptions/2.md) -/
  choices : Nat
  /-- MODEL: the commands that wait, first in, first out -/
  pending : List Instr
  deriving DecidableEq, Repr

/-- No step of this part stops with a fault: the manual gives every command of the table an effect in every
state (notes/assumptions/4.md). Safe: nothing is raised. -/
inductive Fault where
  deriving DecidableEq, Repr

/-- Reasons a command is refused. -/
inductive Refusal where
  /-- Raised by a dispatch arm whose command has no meaning in the model yet; safe. No arm raises it. -/
  | notModelled (mnemonic : String)
  deriving DecidableEq, Repr

/-- The pin levels of `State.reset` (DESIGN CHOICE, notes/assumptions/5.md): every input low, but HLD
released and RESET_N released. -/
def Pins.reset : Pins :=
  { encA := false, encB := false, det := .replicate 4 false, cfm := .replicate 4 false, hld := true,
    resetN := true }

/-- The part right after power-on reset with RESET_N released (R149, R150, R181): SETUP, POWER_ON set, the
references at the pin levels of `Pins.reset`, no command waiting. -/
def State.reset : State :=
  { power := .on
    pins := .reset
    position := .reset false false
    lanes := .replicate 4 .reset
    queue := .reset
    list := .reset
    stations := .replicate 16 .reset
    outputs := .replicate 16 .reset
    cfmRef := .replicate 4 false
    events := .reset
    control := .reset false
    host := .reset true
    globals := .reset
    readData := 0
    choices := 0
    pending := [] }

end Sys2Proof.Machine
end

