-- ==== Sys2Proof/Machine/Flags.lean ====
section
/-! DEFINITION. What is read from the state: the computed conditions (re-travel, blanking, holders, line
levels, pins), the codes of the manual, the packed words of sections 10.3 and 10.4, and the value each
register of the window returns. -/

namespace Sys2Proof.Machine

/-! ### Codes -/

/-- Operating state code (section 8). -/
def OpState.code : OpState → Word
  | .setup => 0
  | .tracking => 1
  | .halted => 2

/-- Cause code n (section 8.3). -/
def Cause.code : Cause → Word
  | .holdInput => 1
  | .overReverse => 2
  | .encoder => 3
  | .queueFull => 4
  | .stationFail => 5
  | .host => 6

/-- The bit of a cause in the cause mask: bit n - 1 for cause n (R169). -/
def Cause.bit : Cause → BitVec 6
  | .holdInput => 0b000001
  | .overReverse => 0b000010
  | .encoder => 0b000100
  | .queueFull => 0b001000
  | .stationFail => 0b010000
  | .host => 0b100000

/-- Verdict code (section 3.1). -/
def Verdict.code : Verdict → Nat
  | .undecided => 0
  | .pass => 1
  | .reject => 2

/-- A decision as a verdict. -/
def Decision.verdict : Decision → Verdict
  | .pass => .pass
  | .reject => .reject

/-- Verdict source code (section 3.1). -/
def Source.code : Source → Nat
  | .none => 0
  | .host => 1
  | .default => 2
  | .forced => 3

/-- Event kind code (section 9.1). -/
def EventKind.code : EventKind → Nat
  | .itemAdmitted => 0x01
  | .itemRefused => 0x02
  | .itemLength => 0x03
  | .itemJam => 0x04
  | .verdictDefaulted => 0x05
  | .itemRetired => 0x06
  | .itemCancelled => 0x07
  | .actionMissed => 0x08
  | .confirmMissing => 0x09
  | .stationFailed => 0x0A
  | .halted => 0x0B
  | .resumed => 0x0C
  | .eventsLost => 0x0F

/-- Result code (section 10.6). -/
def ResultCode.code : ResultCode → Word
  | .done => 0
  | .badCommand => 1
  | .badState => 2
  | .badParam => 3
  | .notFound => 4
  | .tooLate => 5
  | .locked => 6
  | .configError => 7
  | .haltActive => 8

/-- Detector state code of GET_LANE (R17). -/
def Detector.code : Detector → Word
  | .off => 0
  | .waitClear => 1
  | .clear => 2
  | .filtering _ => 3
  | .occupied _ _ => 4

/-- Detector state folded into two bits for STATUS (R168). -/
def Detector.folded : Detector → Nat
  | .off => 0
  | .waitClear => 1
  | .clear => 2
  | .filtering _ => 2
  | .occupied _ _ => 3

/-- The open-item link of a lane (section 2.2). -/
def Detector.link : Detector → Option Tag
  | .occupied link _ => link
  | .off => none
  | .waitClear => none
  | .clear => none
  | .filtering _ => none

/-- Runtime state code (section 5.1). -/
def Runtime.code : Runtime → Nat
  | .disabled => 0
  | .enabled => 1
  | .failed => 2

/-- Selector code (section 5.1). -/
def Selector.code : Selector → Nat
  | .any => 0
  | .pass => 1
  | .reject => 2

/-- Pulse mode code (section 5.1). -/
def PulseMode.code : PulseMode → Nat
  | .count => 0
  | .time => 1
  | .item => 2

/-- Fault action code (R108). -/
def FaultAction.code : FaultAction → Word
  | .off => 0
  | .hold => 1

/-- Forced state code (section 6.1). -/
def Forced.code : Forced → Word
  | .none => 0
  | .inactive => 1
  | .active => 2

/-! ### Computed conditions -/

/-- The part takes events: supply stable and RESET_N high (R149, R150). -/
def State.running (s : State) : Bool := s.power == .on && s.pins.resetN

/-- The part is in hardware reset or power-on reset: reads return 0 (R149, R150). -/
def State.inReset (s : State) : Bool := s.power != .off && !s.running

/-- The reverse amount (R10). -/
def State.reverse (s : State) : Pos := s.position.tracking - s.position.counter

/-- The detectors are blanked (R12). -/
def State.blanked (s : State) : Bool :=
  match s.control.op with
  | .setup => false
  | .tracking => s.reverse != 0
  | .halted => true

/-- Lane `l`'s input is active: its pin level with the polarity applied (section 2.1). -/
def State.inputActive (s : State) (l : LaneId) : Bool :=
  s.pins.det[l] != s.lanes[l].config.activeLow

/-- An OFF entry of a station that drives output `o`. -/
def State.offDrives (s : State) (o : OutputId) (e : Entry) : Bool :=
  match e.kind with
  | .off station _ => s.stations[station].config.output == o
  | .deadline => false
  | .on _ => false
  | .retire => false

/-- A station that drives output `o` and whose time pulse runs. -/
def Station.pulseDrives (o : OutputId) (st : Station) : Bool := st.pulse.isSome && st.config.output == o

/-- The holder count of an output line (R110). -/
def State.holders (s : State) (o : OutputId) : Nat :=
  s.list.entries.countP (s.offDrives o) + s.stations.toList.countP (Station.pulseDrives o)

/-- The line level of an output line: active (R112). -/
def State.lineActive (s : State) (o : OutputId) : Bool :=
  match s.control.op with
  | .setup => s.outputs[o].forced == .active
  | .tracking => decide (0 < s.holders o)
  | .halted =>
    match s.outputs[o].fault with
    | .off => false
    | .hold => s.outputs[o].held == some true

/-- The level at an OUT pin: `none` without power, low in reset, else the line level through the polarity
(R109; notes/assumptions/12.md). -/
def State.outPin (s : State) (o : OutputId) : Option Level :=
  match s.power with
  | .off => none
  | .starting => some false
  | .on => if s.pins.resetN then some (s.lineActive o != s.outputs[o].activeLow) else some false

/-- INT_N is driven low: a bit set both in INT_STATUS and in INT_ENABLE, outside reset (R162). -/
def State.intNLow (s : State) : Bool :=
  s.running && (s.host.intStatus &&& s.host.intEnable) != 0

/-- An ON entry of the list. -/
def Entry.isOn (e : Entry) : Bool :=
  match e.kind with
  | .on _ => true
  | .off _ _ => false
  | .deadline => false
  | .retire => false

/-- The reservations: the ON entries of the list (R66). -/
def State.reservations (s : State) : Nat := s.list.entries.countP Entry.isOn

/-- The slots in use: entries and reservations (R66). -/
def State.slotsUsed (s : State) : Nat := s.list.entries.length + s.reservations

/-- A station is verdict-dependent (R89). -/
def StationConfig.verdictDependent (c : StationConfig) : Bool := c.selector != .any || c.classMask != 0xFFFF

/-- Station `st` is ENABLED with `input` as its confirm input (R123). -/
def State.owns (s : State) (input : InputId) (st : StationId) : Bool :=
  s.stations[st].runtime == .enabled && s.stations[st].config.confirm == some input

/-- The owner of a confirm input (R123). -/
def State.owner (s : State) (input : InputId) : Option StationId := stationIds.find? (s.owns input)

/-! ### Packed words -/

/-- The word of an event record that the word index names (section 10.4). -/
def EventRecord.word (r : EventRecord) (index : Fin 6) : Word :=
  match index with
  | 0 => fieldAt 8 r.kind.code ||| fieldAt 4 r.unit.toNat ||| fieldAt 0 r.low.toNat
  | 1 => r.tag
  | 2 => lo r.position
  | 3 => hi r.position
  | 4 => r.auxA
  | 5 => r.auxB

/-- w0 bits 3 to 0 of ITEM_RETIRED (section 10.4). -/
def Item.retiredLow (i : Item) : BitVec 4 :=
  (if i.short then 1#4 else 0#4) ||| (if i.long then 2#4 else 0#4) ||| (if i.noTrailing then 4#4 else 0#4)
    ||| (if i.missed then 8#4 else 0#4)

/-- Aux A of ITEM_RETIRED (section 10.4, R60). -/
def Item.retiredAux (i : Item) : Word :=
  flagBit 0 i.confirmFail ||| fieldAt 1 i.verdict.code ||| fieldAt 3 i.source.code ||| fieldAt 8 i.reason.toNat

/-- The flags word of QUERY_ITEM (section 10.4, R58). -/
def Item.flagsWord (i : Item) : Word :=
  flagBit 0 i.short ||| flagBit 1 i.long ||| flagBit 2 i.noTrailing ||| flagBit 3 i.missed
    ||| flagBit 4 i.confirmFail ||| flagBit 5 i.final ||| flagBit 6 i.trailing.isSome

/-- The STATUS register (section 10.3, R168). -/
def State.statusWord (s : State) : Word :=
  s.control.op.code ||| flagBit 2 s.host.busy ||| flagBit 3 s.host.overrun ||| flagBit 4 s.control.hldAsserted
    ||| flagBit 5 s.host.powerOn ||| flagBit 6 s.blanked
    ||| fieldAt 8 s.lanes[0].detector.folded ||| fieldAt 10 s.lanes[1].detector.folded
    ||| fieldAt 12 s.lanes[2].detector.folded ||| fieldAt 14 s.lanes[3].detector.folded

/-- The first cause as a number, 0 for none (R142). -/
def Control.firstCode (c : Control) : Word := (c.firstCause.map Cause.code).getD 0

/-- The HALT_CAUSE register (section 10.3, R169). -/
def State.haltCauseWord (s : State) : Word :=
  s.control.firstCode ||| fieldAt 8 s.control.causeMask.toNat

/-- The CMD register as read (R171). -/
def State.cmdWord (s : State) : Word := flagBit 15 s.host.busy ||| s.host.lastCode.zeroExtend 16

/-- What a read of EVENT_DATA returns (R157). -/
def State.eventDataWord (s : State) : Word :=
  match s.events.records with
  | [] => 0
  | r :: _ => r.word s.events.index

/-- What a read of a register returns, by the number on A1 to A5 (half its offset; R165 to R169): 0 in
reset (R166). -/
def State.registerRead (s : State) (register : BitVec 5) : Word :=
  if s.running then
    match register.toNat with
    | 0 => Config.idWord
    | 1 => Config.revisionWord
    | 2 => s.statusWord
    | 3 => s.host.intStatus.zeroExtend 16
    | 4 => s.host.intEnable.zeroExtend 16
    | 5 => s.cmdWord
    | 6 => s.host.resultCode.code
    | 7 => s.haltCauseWord
    | 8 => s.host.params[0]
    | 9 => s.host.params[1]
    | 10 => s.host.params[2]
    | 11 => s.host.params[3]
    | 12 => s.host.params[4]
    | 13 => s.host.params[5]
    | 14 => s.host.params[6]
    | 15 => s.host.params[7]
    | 16 => s.host.results[0]
    | 17 => s.host.results[1]
    | 18 => s.host.results[2]
    | 19 => s.host.results[3]
    | 20 => s.host.results[4]
    | 21 => s.host.results[5]
    | 22 => BitVec.ofNat 16 s.events.records.length
    | 23 => s.events.threshold.zeroExtend 16
    | 24 => s.eventDataWord
    | 28 => lo s.position.counter
    | 29 => s.position.posHigh
    | 30 => lo s.position.tracking
    | 31 => s.position.trackHigh
    | _ => 0
  else 0

end Sys2Proof.Machine
end

