-- ==== Sys2Proof/Machine/Operands.lean ====
section
/-! DEFINITION. The operand forms of the commands: the packed parameter words of sections 10.7 and 10.8, read
and judged, and the same layouts written for the GET commands. A `none` is a parameter out of range. -/

namespace Sys2Proof.Machine

/-- Bit `n` of a word. -/
def bitAt (w : Word) (n : Nat) : Bool := w.getLsbD n

/-- A whole parameter word as a number below `n`, or out of range (section 10.7). -/
def wholeBelow (n : Nat) (w : Word) : Option (Fin n) :=
  if h : w.toNat < n then some ⟨w.toNat, h⟩ else none

/-- Default verdict and DECIDE verdict: 1 PASS, 2 REJECT. -/
def decisionOf (n : Nat) : Option Decision :=
  match n with
  | 1 => some .pass
  | 2 => some .reject
  | _ => none

/-- Selector field (section 10.7). -/
def selectorOf (n : Nat) : Option Selector :=
  match n with
  | 0 => some .any
  | 1 => some .pass
  | 2 => some .reject
  | _ => none

/-- Pulse mode field (section 10.7). -/
def pulseModeOf (n : Nat) : Option PulseMode :=
  match n with
  | 0 => some .count
  | 1 => some .time
  | 2 => some .item
  | _ => none

/-- Confirm input field: 0 to 3, or 4 for NONE; 5 to 7 out of range (section 10.7). -/
def confirmOf (n : Nat) : Option (Option InputId) :=
  match n with
  | 0 => some (some 0)
  | 1 => some (some 1)
  | 2 => some (some 2)
  | 3 => some (some 3)
  | 4 => some none
  | _ => none

/-- Code of a confirm input field (section 10.7). -/
def confirmCode : Option InputId → Nat
  | none => 4
  | some i => i.val

/-! ### SET_GLOBAL (section 10.8) -/

/-- The values of a SET_GLOBAL. -/
structure GlobalWords where
  tickDiv : BitVec 8
  mode : EncoderMode
  invert : Bool
  haltOnFail : Bool
  tolerance : Word
  mask : BitVec 9
  deriving DecidableEq, Repr

/-- Encoder mode field (R178). -/
def encoderModeOf (n : Nat) : Option EncoderMode :=
  match n with
  | 0 => some .quad
  | 1 => some .pulseDir
  | _ => none

/-- Code of an encoder mode (section 10.8). -/
def EncoderMode.code : EncoderMode → Nat
  | .quad => 0
  | .pulseDir => 1

/-- The words of a SET_GLOBAL, judged (R178). -/
def globalOf (p : Vector Word 8) : Option GlobalWords :=
  match encoderModeOf (p[1].extractLsb' 0 2).toNat with
  | none => none
  | some mode =>
    if p[0] = 0 ∨ 255 < p[0].toNat ∨ p[3].extractLsb' 9 7 ≠ 0 then none
    else some { tickDiv := p[0].extractLsb' 0 8, mode := mode, invert := bitAt p[1] 2,
                haltOnFail := bitAt p[1] 3, tolerance := p[2], mask := p[3].extractLsb' 0 9 }

/-- PARAM1 of SET_GLOBAL as GET_GLOBAL returns it (R179). -/
def globalFlags (s : State) : Word :=
  fieldAt 0 s.position.mode.code ||| flagBit 2 s.position.invert ||| flagBit 3 s.globals.haltOnFail

/-! ### SET_LANE (section 10.7, R16) -/

/-- The configuration a SET_LANE carries, its ranges judged (R16). -/
def laneConfigOf (p : Vector Word 8) : Option LaneConfig :=
  match decisionOf (p[1].extractLsb' 2 2).toNat with
  | none => none
  | some verdict =>
    let filter : BitVec 8 := p[0].extractLsb' 8 8
    let minLength : Word := p[3]
    let maxLength : Distance := p[0].extractLsb' 0 8 ++ p[4]
    let decision : Distance := p[7].extractLsb' 0 8 ++ p[5]
    let exit : Distance := p[7].extractLsb' 8 8 ++ p[6]
    if decision = 0 ∨ exit = 0
        ∨ (minLength ≠ 0 ∧ maxLength ≠ 0 ∧ maxLength.toNat ≤ minLength.toNat)
        ∨ exit.toNat ≤ filter.toNat then none
    else some { enabled := bitAt p[1] 0, activeLow := bitAt p[1] 1, filter := filter, minPitch := p[2],
                minLength := minLength, maxLength := maxLength, decision := decision, exit := exit,
                defaultVerdict := verdict, defaultClass := (p[1].extractLsb' 8 4).toFin,
                sizePolicy := if bitAt p[1] 4 then .reject else .flag,
                overflow := if bitAt p[1] 5 then .halt else .drop }

/-- The lane number of a SET_LANE, PARAM1 bits 15 to 12 (R16). -/
def setLaneNumber (p : Vector Word 8) : Option LaneId :=
  wholeBelow 4 ((p[1].extractLsb' 12 4).zeroExtend 16)

/-- The lane's flags word, laid out as PARAM1 of SET_LANE with the lane number (section 10.7). -/
def laneFlags (l : LaneId) (c : LaneConfig) : Word :=
  flagBit 0 c.enabled ||| flagBit 1 c.activeLow ||| fieldAt 2 c.defaultVerdict.verdict.code
    ||| flagBit 4 (c.sizePolicy == .reject) ||| flagBit 5 (c.overflow == .halt)
    ||| fieldAt 8 c.defaultClass.val ||| fieldAt 12 l.val

/-! ### SET_STATION (section 10.7, R87) -/

/-- The pulse and cap words suit the mode (R87). -/
def pulseWordsFit (mode : PulseMode) (pulse cap : Word) : Bool :=
  match mode with
  | .count => pulse != 0 && cap == 0
  | .time => pulse != 0 && cap == 0
  | .item => cap != 0

/-- The configuration a SET_STATION carries, its ranges judged (R87). -/
def stationConfigOf (p : Vector Word 8) : Option StationConfig :=
  match selectorOf (p[3].extractLsb' 1 2).toNat, pulseModeOf (p[3].extractLsb' 3 2).toNat,
      confirmOf (p[3].extractLsb' 5 3).toNat, wholeBelow 16 ((p[2].extractLsb' 8 8).zeroExtend 16) with
  | some selector, some mode, some confirm, some output =>
    let offset : Distance := p[2].extractLsb' 0 8 ++ p[1]
    if offset = 0 ∨ p[7] = 0 ∨ !pulseWordsFit mode p[5] p[6] then none
    else some { enabled := bitAt p[3] 0, lane := (p[3].extractLsb' 10 2).toFin, offset := offset,
                selector := selector, classMask := p[4], mode := mode, pulseWord := p[5], capWord := p[6],
                output := output, confirm := confirm, falling := bitAt p[3] 8, window := p[7],
                missLimit := p[3].extractLsb' 12 4 }
  | none, _, _, _ => none
  | some _, none, _, _ => none
  | some _, some _, none, _ => none
  | some _, some _, some _, none => none

/-- PARAM3 of SET_STATION as GET_STATION part 0 returns it (section 10.7). -/
def stationFlags (c : StationConfig) : Word :=
  flagBit 0 c.enabled ||| fieldAt 1 c.selector.code ||| fieldAt 3 c.mode.code
    ||| fieldAt 5 (confirmCode c.confirm) ||| flagBit 8 c.falling

/-- RESULT3 of GET_STATION part 1 (section 10.7). -/
def stationStateWord (st : Station) : Word :=
  fieldAt 0 st.config.missLimit.toNat ||| fieldAt 4 st.runtime.code ||| flagBit 8 st.pulse.isSome

/-! ### DECIDE (R46) -/

/-- The parameters of a DECIDE; a class of `none` keeps the item's class. -/
structure DecideWords where
  tag : Tag
  lane : LaneId
  verdict : Decision
  reason : BitVec 8
  cls : Option (Fin 16)
  deriving DecidableEq, Repr

/-- Class parameter: 0 to 15, or FFh to keep (R46). -/
def classOf (w : Word) : Option (Option (Fin 16)) :=
  if w = 0xFF then some none else (wholeBelow 16 w).map some

/-- The words of a DECIDE, judged (R46). -/
def decideOf (p : Vector Word 8) : Option DecideWords :=
  match wholeBelow 4 p[1], decisionOf p[2].toNat, classOf p[4] with
  | some lane, some verdict, some cls =>
    if p[0] = 0 ∨ 0xEF < p[3].toNat then none
    else some { tag := p[0], lane := lane, verdict := verdict, reason := p[3].extractLsb' 0 8, cls := cls }
  | none, _, _ => none
  | some _, none, _ => none
  | some _, some _, none => none

/-- Tag and lane of CANCEL and QUERY_ITEM, judged (R55, R58). -/
def tagLaneOf (p : Vector Word 8) : Option (Tag × LaneId) :=
  if p[0] = 0 then none else (wholeBelow 4 p[1]).map (fun l => (p[0], l))

/-! ### Result words -/

/-- Six result words. -/
def words (a b c d e f : Word) : Vector Word 6 := #v[a, b, c, d, e, f]

/-- Result words all 0. -/
def noWords : Vector Word 6 := words 0 0 0 0 0 0

end Sys2Proof.Machine
end

