-- ==== Sys2Proof/Machine/Ops.lean ====
section
/-! DEFINITION. Operations every block uses: position comparison, updates of one lane, station, output or
item, counters, the arrival of an event, interrupt status, halt requests and halt entry, the free choice of
order, and the completion of a command. -/

namespace Sys2Proof.Machine

/-! ### Positions (conventions of 00_scope.md) -/

/-- Position `p` is ahead of `q`. -/
def ahead (p q : Pos) : Bool := decide (1 ≤ (p - q).toNat ∧ (p - q).toNat < 2 ^ 31)

/-- Position `p` is behind `q`. -/
def behind (p q : Pos) : Bool := decide (2 ^ 31 ≤ (p - q).toNat)

/-- Position `p` is reached: at or behind the tracking position. -/
def State.hasReached (s : State) (p : Pos) : Bool := p == s.position.tracking || behind p s.position.tracking

/-! ### Updates of one piece of state -/

/-- Lane `l` changed by `f`. -/
def State.updLane (s : State) (l : LaneId) (f : Lane → Lane) : State := { s with lanes := upd s.lanes l f }

/-- Station `n` changed by `f`. -/
def State.updStation (s : State) (n : StationId) (f : Station → Station) : State :=
  { s with stations := upd s.stations n f }

/-- Output line `o` changed by `f`. -/
def State.updOutput (s : State) (o : OutputId) (f : OutputLine → OutputLine) : State :=
  { s with outputs := upd s.outputs o f }

/-- The live item that holds the tag (R35). -/
def State.findItem (s : State) (tag : Tag) : Option Item := s.queue.items.find? (fun i => i.tag == tag)

/-- The live item that holds the tag, when it belongs to the lane (R47, R55, R58). -/
def State.findInLane (s : State) (tag : Tag) (lane : LaneId) : Option Item :=
  (s.findItem tag).filter (fun i => i.lane == lane)

/-- The live item that holds the tag changed by `f`; no record is touched when there is none (R36). -/
def State.updItem (s : State) (tag : Tag) (f : Item → Item) : State :=
  { s with queue := { s.queue with items := s.queue.items.map (fun i => if i.tag = tag then f i else i) } }

/-- The entries of the list changed by `f`. -/
def State.updEntries (s : State) (f : List Entry → List Entry) : State :=
  { s with list := { s.list with entries := f s.list.entries } }

/-- The detector of lane `l` set. -/
def State.setDetector (s : State) (l : LaneId) (d : Detector) : State :=
  s.updLane l (fun x => { x with detector := d })

/-! ### Lane counters (R32) -/

/-- The ten counters by name (R32). -/
inductive CounterName where
  | leading
  | glitches
  | pitchIgnored
  | admitted
  | refused
  | retired
  | cancelled
  | forcedRejects
  | defaults
  | noTrailing
  deriving DecidableEq, Repr

/-- One counter increased by one, from FFFFh to 0 (section 2.7). -/
def LaneCounters.bump (c : LaneCounters) : CounterName → LaneCounters
  | .leading => { c with leading := c.leading + 1 }
  | .glitches => { c with glitches := c.glitches + 1 }
  | .pitchIgnored => { c with pitchIgnored := c.pitchIgnored + 1 }
  | .admitted => { c with admitted := c.admitted + 1 }
  | .refused => { c with refused := c.refused + 1 }
  | .retired => { c with retired := c.retired + 1 }
  | .cancelled => { c with cancelled := c.cancelled + 1 }
  | .forcedRejects => { c with forcedRejects := c.forcedRejects + 1 }
  | .defaults => { c with defaults := c.defaults + 1 }
  | .noTrailing => { c with noTrailing := c.noTrailing + 1 }

/-- A counter of lane `l` increased by one (R32). -/
def State.countLane (s : State) (l : LaneId) (n : CounterName) : State :=
  s.updLane l (fun x => { x with counters := x.counters.bump n })

/-! ### Interrupt status (R161) -/

/-- INT_STATUS bit CMD. -/
def intCmd : BitVec 4 := 1

/-- INT_STATUS bit EVT. -/
def intEvt : BitVec 4 := 2

/-- INT_STATUS bit HALT. -/
def intHalt : BitVec 4 := 4

/-- INT_STATUS bit LOST. -/
def intLost : BitVec 4 := 8

/-- Bits of INT_STATUS set (R161). -/
def State.raiseInt (s : State) (bits : BitVec 4) : State :=
  { s with host := { s.host with intStatus := s.host.intStatus ||| bits } }

/-! ### Events (R152 to R156, R160) -/

/-- The bit of a kind in the event mask; kinds 0Ah and up have none (R154). -/
def EventQueue.masks (q : EventQueue) (k : EventKind) : Bool :=
  match k with
  | .itemAdmitted => q.mask.getLsbD 0
  | .itemRefused => q.mask.getLsbD 1
  | .itemLength => q.mask.getLsbD 2
  | .itemJam => q.mask.getLsbD 3
  | .verdictDefaulted => q.mask.getLsbD 4
  | .itemRetired => q.mask.getLsbD 5
  | .itemCancelled => q.mask.getLsbD 6
  | .actionMissed => q.mask.getLsbD 7
  | .confirmMissing => q.mask.getLsbD 8
  | .stationFailed => false
  | .halted => false
  | .resumed => false
  | .eventsLost => false

/-- A record appended at the tail; EVT is set when the count comes to the threshold (R153, R160). -/
def State.appendRecord (s : State) (r : EventRecord) : State :=
  let s' := { s with events := { s.events with records := s.events.records ++ [r] } }
  if s.events.records.length + 1 = s.events.threshold.toNat then s'.raiseInt intEvt else s'

/-- The first record of a loss (R156). -/
def lostRecord (position : Pos) : EventRecord :=
  { kind := .eventsLost, unit := 0, low := 0, tag := 0, position := position, auxA := 1, auxB := 0 }

/-- The count of an EVENTS_LOST record increased by one, staying at FFFFFFFFh (R155). -/
def EventRecord.loseOne (r : EventRecord) : EventRecord :=
  if r.kind = .eventsLost ∧ joinWords r.auxA r.auxB ≠ 0xFFFFFFFF then
    let count := joinWords r.auxA r.auxB + 1
    { r with auxA := lo count, auxB := hi count }
  else r

/-- The last element of a list changed by `f`. -/
def mapLast {α : Type} (f : α → α) : List α → List α
  | [] => []
  | [x] => [f x]
  | x :: y :: rest => x :: mapLast f (y :: rest)

/-- An event arrives at the queue (R154, R155). -/
def State.arrive (s : State) (r : EventRecord) : State :=
  if s.events.masks r.kind then s
  else if s.events.records.length + 2 ≤ Config.eventRecords then s.appendRecord r
  else if s.events.records.length + 1 = Config.eventRecords then
    (s.appendRecord (lostRecord s.position.tracking)).raiseInt intLost
  else
    State.raiseInt { s with events := { s.events with records := mapLast EventRecord.loseOne s.events.records } }
      intLost

/-- A block queues an event: the record is formed with the tracking position of the moment (R152). -/
def State.report (s : State) (kind : EventKind) (unit : BitVec 4) (tag : Tag) (auxA auxB : Word) : State :=
  s.arrive { kind := kind, unit := unit, low := 0, tag := tag, position := s.position.tracking,
             auxA := auxA, auxB := auxB }

/-- A lane number as the unit field. -/
def laneUnit (l : LaneId) : BitVec 4 := BitVec.ofNat 4 l.val

/-- A station number as the unit field. -/
def stationUnit (n : StationId) : BitVec 4 := BitVec.ofNat 4 n.val

/-! ### Halts (R139 to R141) -/

/-- All pending watches of every station discarded (R133). -/
def State.discardWatches (s : State) : State :=
  { s with stations := mapAll (fun st => { st with watches := [] }) s.stations }

/-- Every output line takes its fault action: HOLD lines keep their present level (R114). -/
def State.takeFaultActions (s : State) : State :=
  { s with outputs := stationIds.foldl (fun outs o =>
      upd outs o (fun line =>
        { line with held := match line.fault with
                            | .off => none
                            | .hold => some (s.lineActive o) })) s.outputs }

/-- Halt entry, in the order of R141; the lines' levels are those just before it (R114). -/
def State.haltEntry (s : State) (c : Cause) : State :=
  let s1 := s.takeFaultActions.discardWatches
  let s2 := { s1 with
    control := { s1.control with op := .halted, firstCause := some c, causeMask := s1.control.causeMask ||| c.bit }
    list := { s1.list with firingPoint := s1.position.tracking } }
  (s2.report .halted 0 0 c.code (s2.control.causeMask.zeroExtend 16)).raiseInt intHalt

/-- Operating control takes a halt request (R140). -/
def State.takeHalt (s : State) (c : Cause) : State :=
  match s.control.op with
  | .setup => s
  | .tracking => s.haltEntry c
  | .halted => { s with control := { s.control with causeMask := s.control.causeMask ||| c.bit } }

/-- A block sends a halt request to operating control (section 8.3). -/
def State.requestHalt (s : State) (c : Cause) : State :=
  { s with control := { s.control with requests := s.control.requests ++ [c] } }

/-- The requests on their way set. -/
def State.withRequests (s : State) (cs : List Cause) : State :=
  { s with control := { s.control with requests := cs } }

/-! ### The free choice of order (notes/assumptions/2.md) -/

/-- One element of a list taken out, the element `k` names; a list of one leaves nothing to choose. -/
def pick {α : Type} (k : Nat) : List α → Option (α × List α)
  | [] => none
  | [x] => some (x, [])
  | x :: y :: rest =>
    match (x :: y :: rest)[k % (rest.length + 2)]? with
    | some z => some (z, (x :: y :: rest).eraseIdx (k % (rest.length + 2)))
    | none => some (x, y :: rest)

/-- A free choice has been used when there was more than one candidate. -/
def State.countChoice {α : Type} (s : State) (candidates : List α) : State :=
  if 2 ≤ candidates.length then { s with choices := s.choices + 1 } else s

/-- What operating control may take next: a request on its way or, where a request may wait on, none of them. -/
def State.arrivals (s : State) (mayWait : Bool) : List (Option Cause) :=
  (if mayWait then [none] else []) ++ s.control.requests.map some

/-- Operating control takes requests on their way, in a free order: all of them or, where they may wait on, as many as
the free choice says (R140, R143). `fuel` bounds the number of requests. -/
def State.takeRequests (mayWait : Bool) : Nat → State → State
  | 0, s => s
  | fuel + 1, s =>
    match pick (Config.choice s.choices) (s.arrivals mayWait) with
    | none => s
    | some (none, _) => s.countChoice (s.arrivals mayWait)
    | some (some c, rest) =>
      State.takeRequests mayWait fuel
        (((s.countChoice (s.arrivals mayWait)).withRequests (rest.filterMap id)).takeHalt c)

/-- Operating control takes every request on its way, in a free order (R140). -/
def State.settleHalts (s : State) : State := s.takeRequests false s.control.requests.length

/-- The requests on their way when a command has had its effect: in SETUP they are not acted on; else operating control
takes them, but while commands wait a request may be taken after the next of them (R143; notes/assumptions/10.md). -/
def State.arriveHalts (s : State) : State :=
  match s.control.op with
  | .setup => s.withRequests []
  | .tracking => s.takeRequests (!s.pending.isEmpty) s.control.requests.length
  | .halted => s.takeRequests (!s.pending.isEmpty) s.control.requests.length

/-- The requests raised before a command that are still on their way in it: one that finds SETUP is not acted on. -/
def State.requestsBefore (s : State) : List Cause :=
  match s.control.op with
  | .setup => []
  | .tracking => s.control.requests
  | .halted => s.control.requests

/-- A command has its effect, with the requests raised before it still on their way, and then requests arrive (R143).
In reset and without power no request is on its way. -/
def State.amid (s : State) (effect : State → State) : State :=
  if s.running then
    let t := effect (s.withRequests [])
    (t.withRequests (s.requestsBefore ++ t.control.requests)).arriveHalts
  else effect s

/-- Every element of a list acted on once, in a free order. -/
def inFreeOrder {α : Type} (act : α → State → State) : Nat → List α → State → State
  | 0, _, s => s
  | fuel + 1, xs, s =>
    match pick (Config.choice s.choices) xs with
    | none => s
    | some (x, rest) => inFreeOrder act fuel rest (act x (s.countChoice xs))

/-! ### Completion of a command (R172) -/

/-- What the owner answers: the result code, the result words, and the state its effects leave. -/
structure Answer where
  code : ResultCode
  results : Vector Word 6
  state : State

/-- A refusal with result words 0 and nothing changed (R177). -/
def Answer.refuse (code : ResultCode) (s : State) : Answer := { code := code, results := noWords, state := s }

/-- DONE. -/
def Answer.done (results : Vector Word 6) (s : State) : Answer := { code := .done, results := results, state := s }

/-- The command with this code is in flight (R171). -/
def State.inFlight (s : State) (code : BitVec 8) : Bool :=
  s.running && s.host.busy && s.host.lastCode == code

/-- Steps 2 to 4 of R172. -/
def Answer.finish (a : Answer) : State :=
  State.raiseInt
    { a.state with host := { a.state.host with resultCode := a.code, results := a.results, busy := false } } intCmd

/-- The command with this code completes with the owner's judgement; a completion of a command that is not in
flight cannot arise and changes nothing (notes/assumptions/4.md). -/
def complete (code : BitVec 8) (judge : State → Answer) (s : State) : Host.Outcome State Fault Refusal :=
  .next (s.amid (fun t => if t.inFlight code then (judge t).finish else t))

end Sys2Proof.Machine
end

