-- ==== Sys2Proof/Machine/ListOps.lean ====
section
/-! DEFINITION. The action list as a structure: list order, placing, taking out, removal, re-keying marks
(Chapter 4). Firing is in Firing.lean. -/

namespace Sys2Proof.Machine

/-- Kind order at one fire position (R65). -/
def EntryKind.rank : EntryKind → Nat
  | .off _ _ => 0
  | .deadline => 1
  | .on _ => 2
  | .retire => 3

/-- Entry `x` stays before a newly placed entry `e`: smaller distance from the firing point, or the same fire
position and a kind that is not later (R65). -/
def staysBefore (firingPoint : Pos) (e x : Entry) : Bool :=
  decide ((x.fire - firingPoint).toNat < (e.fire - firingPoint).toNat)
    || (x.fire == e.fire && decide (x.kind.rank ≤ e.kind.rank))

/-- An entry placed in a list in list order (R65). -/
def insertEntry (firingPoint : Pos) (e : Entry) : List Entry → List Entry
  | [] => [e]
  | x :: rest => if staysBefore firingPoint e x then x :: insertEntry firingPoint e rest else e :: x :: rest

/-- An entry placed in the action list (R65). -/
def State.place (s : State) (e : Entry) : State := s.updEntries (insertEntry s.list.firingPoint e)

/-- A new entry, not reached. -/
def Entry.make (kind : EntryKind) (fire : Pos) (tag : Tag) : Entry :=
  { kind := kind, fire := fire, tag := tag, reached := false }

/-- The first entry for which `p` holds, and the list without it. -/
def takeFirst (p : Entry → Bool) : List Entry → Option (Entry × List Entry)
  | [] => none
  | x :: rest =>
    if p x then some (x, rest)
    else (takeFirst p rest).map (fun r => (r.1, x :: r.2))

/-- An OFF entry. -/
def Entry.isOff (e : Entry) : Bool :=
  match e.kind with
  | .off _ _ => true
  | .deadline => false
  | .on _ => false
  | .retire => false

/-- An ON entry of station `n`. -/
def Entry.isOnOf (n : StationId) (e : Entry) : Bool :=
  match e.kind with
  | .on m => m == n
  | .off _ _ => false
  | .deadline => false
  | .retire => false

/-- A re-keyable OFF entry that carries the tag. -/
def Entry.rekeysFor (tag : Tag) (e : Entry) : Bool :=
  match e.kind with
  | .off _ rekeyable => rekeyable && e.tag == tag
  | .deadline => false
  | .on _ => false
  | .retire => false

/-- A RETIRE, DEADLINE or ON entry that carries the tag (R75). -/
def Entry.plannedFor (tag : Tag) (e : Entry) : Bool := !e.isOff && e.tag == tag

/-- An OFF entry that carries the tag (R75). -/
def Entry.offFor (tag : Tag) (e : Entry) : Bool := e.isOff && e.tag == tag

/-- The entry with its re-keyable mark cleared. -/
def Entry.unmark (e : Entry) : Entry :=
  match e.kind with
  | .off n _ => { e with kind := .off n false }
  | .deadline => e
  | .on _ => e
  | .retire => e

/-- The re-keyable marks of a freed item's OFF entries cleared (R73, R75). -/
def State.unmarkTag (s : State) (tag : Tag) : State :=
  s.updEntries (fun es => es.map (fun e => if e.tag = tag then e.unmark else e))

/-- Every ON entry of a station removed, with its reservation (R76). -/
def State.removeOnEntries (s : State) (n : StationId) : State :=
  s.updEntries (fun es => es.filter (fun e => !e.isOnOf n))

/-- The free slots are at least `need` (R39, R66). -/
def State.hasSlots (s : State) (need : Nat) : Bool := decide (s.slotsUsed + need ≤ Config.listSlots)

/-- Of an entry to be re-keyed: where it stands afterwards (R79). -/
inductive Rekey where
  | fires
  | moves (target : Pos)
  | stays
  deriving DecidableEq, Repr

/-- The result of re-keying an entry at `k` against the candidate `c` (R79). -/
def rekeyResult (s : State) (k c : Pos) : Rekey :=
  if s.hasReached c then .fires else if behind c k then .moves c else .stays

/-- What becomes of one entry when the item's trailing position `t` arrives (R79); `none` for an entry that is
not re-keyed. -/
def State.rekeyOf (s : State) (tag : Tag) (t : Pos) (e : Entry) : Option Rekey :=
  match e.kind with
  | .off n rekeyable =>
    if rekeyable && e.tag == tag then
      some (rekeyResult s e.fire (t + (s.stations[n].config.pulseWord).zeroExtend 32))
    else none
  | .deadline => none
  | .on _ => none
  | .retire => none

/-- The entry where it stays in the list at re-keying: an entry that fires at once or moves leaves its place. -/
def State.rekeyKept (s : State) (tag : Tag) (t : Pos) (e : Entry) : Option Entry :=
  match s.rekeyOf tag t e with
  | none => some e
  | some .stays => some e.unmark
  | some .fires => none
  | some (.moves _) => none

/-- The entry where it moves to at re-keying. -/
def State.rekeyMoved (s : State) (tag : Tag) (t : Pos) (e : Entry) : Option Entry :=
  match s.rekeyOf tag t e with
  | some (.moves c) => some { e.unmark with fire := c }
  | none => none
  | some .stays => none
  | some .fires => none

/-- Every re-keyable OFF entry of the tag re-keyed against trailing position `t`, in list order (R79): those
that fire leave the list, removing their holders (R72); the moved ones are placed in list order after every OFF
entry at their new position. -/
def State.rekey (s : State) (tag : Tag) (t : Pos) : State :=
  s.updEntries (fun es =>
    (es.filterMap (s.rekeyMoved tag t)).foldl (fun l e => insertEntry s.list.firingPoint e l)
      (es.filterMap (s.rekeyKept tag t)))

end Sys2Proof.Machine
end

