-- ==== Sys2Proof/Machine/Queue.lean ====
section
/-! DEFINITION. The tracking queue: tags, admission, verdicts, retirement, cancellation (Chapter 3). -/

namespace Sys2Proof.Machine

/-! ### Tags (R37) -/

/-- The tag after `t` in the sequence 1, 2, … 65535, 1 (R37). -/
def succTag (t : Tag) : Tag := if t = 0xFFFF then 1 else t + 1

/-- The first tag from `t` on that no live item holds; `fuel` bounds the search (R37). -/
def freshTag (held : Tag → Bool) : Nat → Tag → Tag
  | 0, t => t
  | fuel + 1, t => if held t then freshTag held fuel (succTag t) else t

/-- A live item holds the tag. -/
def State.holdsTag (s : State) (t : Tag) : Bool := s.queue.items.any (fun i => i.tag == t)

/-- The tag the next admission gives (R37). -/
def State.giveTag (s : State) : Tag := freshTag s.holdsTag s.queue.items.length s.queue.nextTag

/-! ### Admission (R38 to R40) -/

/-- Station `n` is ENABLED and belongs to lane `l`. -/
def State.servesLane (s : State) (l : LaneId) (n : StationId) : Bool :=
  s.stations[n].runtime == .enabled && s.stations[n].config.lane == l

/-- The ENABLED stations of a lane, in ascending order (R39). -/
def State.laneStations (s : State) (l : LaneId) : List StationId := stationIds.filter (s.servesLane l)

/-- The lane has a decision point (R39). -/
def State.hasDecisionPoint (s : State) (l : LaneId) : Bool :=
  (s.laneStations l).any (fun n => s.stations[n].config.verdictDependent)

/-- The slots an item of the lane needs (R39). -/
def State.slotNeed (s : State) (l : LaneId) : Nat :=
  1 + (if s.hasDecisionPoint l then 1 else 0) + 2 * (s.laneStations l).length

/-- The entries of an item, in placing order: RETIRE, DEADLINE, ON by ascending station (R40, R69). -/
def State.plan (s : State) (l : LaneId) (leading : Pos) (tag : Tag) : List Entry :=
  [Entry.make .retire (leading + wide s.lanes[l].config.exit) tag]
    ++ (if s.hasDecisionPoint l then [Entry.make .deadline (leading + wide s.lanes[l].config.decision) tag] else [])
    ++ (s.laneStations l).map (fun n => Entry.make (.on n) (leading + wide s.stations[n].config.offset) tag)

/-- The record of a newly admitted item (section 3.1). -/
def newItem (tag : Tag) (l : LaneId) (leading : Pos) (cls : Fin 16) : Item :=
  { tag := tag, lane := l, leading := leading, trailing := none, length := none, verdict := .undecided,
    source := .none, reason := 0, cls := cls, final := false, short := false, long := false,
    noTrailing := false, missed := false, confirmFail := false, fired := 0 }

/-- The queue's answer to an admission request (R38, R39). -/
inductive Admission where
  | admitted (tag : Tag)
  | noRecord
  | noSlots
  deriving DecidableEq, Repr

/-- How the queue judges an admission request of a lane (R38, R39). -/
def State.judgeAdmission (s : State) (l : LaneId) : Admission :=
  if Config.itemRecords ≤ s.queue.items.length then .noRecord
  else if s.hasSlots (s.slotNeed l) then .admitted s.giveTag
  else .noSlots

/-- An item admitted: record, entries, ITEM_ADMITTED (R40). -/
def State.admitItem (s : State) (l : LaneId) (leading : Pos) (tag : Tag) : State :=
  let item := newItem tag l leading s.lanes[l].config.defaultClass
  let s1 := { s with queue := { items := s.queue.items ++ [item], nextTag := succTag tag } }
  let s2 := (s.plan l leading tag).foldl State.place s1
  s2.report .itemAdmitted (laneUnit l) tag (lo leading) (hi leading)

/-! ### Verdicts (R43, R44, R52) -/

/-- A forced verdict, on an item that is not final (R52). -/
def Item.force (reason : BitVec 8) (i : Item) : Item :=
  if i.final then i else { i with verdict := .reject, source := .forced, reason := reason }

/-- The size policy of a lane applied to a finding on an item (R29). -/
def State.applySizePolicy (s : State) (l : LaneId) (tag : Tag) (reason : BitVec 8) : State :=
  match s.lanes[l].config.sizePolicy, s.findItem tag with
  | .flag, _ => s
  | .reject, none => s
  | .reject, some i =>
    if i.final then s else (s.updItem tag (Item.force reason)).countLane l .forcedRejects

/-- The verdict of an item closed: the lane's default when it is UNDECIDED, with VERDICT_DEFAULTED, and final
(R44, step 1 of R59). -/
def State.closeVerdict (s : State) (i : Item) : State :=
  match i.verdict with
  | .undecided =>
    let v := s.lanes[i.lane].config.defaultVerdict.verdict
    let s1 := s.updItem i.tag (fun x => { x with verdict := v, source := .default, reason := 0, final := true })
    (s1.countLane i.lane .defaults).report .verdictDefaulted (laneUnit i.lane) i.tag (BitVec.ofNat 16 v.code) 0
  | .pass => s.updItem i.tag (fun x => { x with final := true })
  | .reject => s.updItem i.tag (fun x => { x with final := true })

/-- A DEADLINE entry fires (R44, R73). -/
def State.fireDeadline (s : State) (tag : Tag) : State :=
  match s.findItem tag with
  | none => s
  | some i => if i.final then s else s.closeVerdict i

/-! ### Leaving the queue (R27, R56, R59, R60) -/

/-- The lane's open-item link is on the tag. -/
def State.linked (s : State) (l : LaneId) (tag : Tag) : Bool := s.lanes[l].detector.link == some tag

/-- The open-item link made absent, the detector staying OCCUPIED (R27). -/
def Detector.unlink : Detector → Detector
  | .occupied _ candidate => .occupied none candidate
  | .off => .off
  | .waitClear => .waitClear
  | .clear => .clear
  | .filtering capture => .filtering capture

/-- The lane's link on the tag made absent. -/
def State.unlink (s : State) (l : LaneId) (tag : Tag) : State :=
  if s.linked l tag then s.updLane l (fun x => { x with detector := x.detector.unlink }) else s

/-- The record freed, and the re-keyable marks of its OFF entries cleared (R59, R56, R73, R75). -/
def State.freeItem (s : State) (tag : Tag) : State :=
  State.unmarkTag
    { s with queue := { s.queue with items := s.queue.items.filter (fun i => i.tag != tag) } } tag

/-- The event ITEM_RETIRED of a record as it stands (R60). -/
def State.reportRetired (s : State) (i : Item) : State :=
  s.arrive { kind := .itemRetired, unit := laneUnit i.lane, low := i.retiredLow, tag := i.tag,
             position := s.position.tracking, auxA := i.retiredAux, auxB := i.fired }

/-- Step 2 of R59: NO_TRAILING when the lane still expects the trailing edge. -/
def State.noteNoTrailing (s : State) (i : Item) : State :=
  if s.linked i.lane i.tag then
    ((s.updItem i.tag (fun x => { x with noTrailing := true })).countLane i.lane .noTrailing).unlink i.lane i.tag
  else s

/-- A RETIRE entry fires: the item is retired, in the order of R59. -/
def State.retireItem (s : State) (tag : Tag) : State :=
  match s.findItem tag with
  | none => s
  | some i =>
    let s1 := if i.final then s else s.closeVerdict i
    let s2 := (s1.noteNoTrailing i).countLane i.lane .retired
    let s3 := match s2.findItem tag with
              | none => s2
              | some record => s2.reportRetired record
    s3.freeItem tag

/-- An item cancelled, in the order of R56. -/
def State.cancelItem (s : State) (i : Item) : State :=
  let s1 := s.updEntries (fun es => es.filter (fun e => !e.plannedFor i.tag))
  let s2 := (s1.unlink i.lane i.tag).countLane i.lane .cancelled
  (s2.report .itemCancelled (laneUnit i.lane) i.tag 0 0).freeItem i.tag

end Sys2Proof.Machine
end

