-- ==== Sys2Proof/Machine/Monitor.lean ====
section
/-! DEFINITION. Stations and the confirmation monitor: misses, failure, watches, the condition and the
activation (Chapters 5 and 7). -/

namespace Sys2Proof.Machine

/-! ### Misses and failure (R96, R130, R131) -/

/-- The passage to FAILED, in the order of R96. -/
def State.failStation (s : State) (n : StationId) (tag : Tag) : State :=
  let s1 := s.updStation n (fun st => { st with runtime := .failed })
  let s2 := (s1.removeOnEntries n).updStation n (fun st => { st with watches := [] })
  let s3 := s2.report .stationFailed (stationUnit n) tag 0 0
  if s3.globals.haltOnFail then s3.requestHalt .stationFail else s3

/-- The miss count raised by one, staying at 15 (R131). -/
def raiseMisses (m : BitVec 4) : BitVec 4 := if m = 15 then 15 else m + 1

/-- A station in ENABLED whose miss count equals its non-zero limit (R130). -/
def Station.atLimit (st : Station) : Bool :=
  st.runtime == .enabled && st.config.missLimit != 0 && st.misses == st.config.missLimit

/-- A watch declared missed, in the order of R130; `aux` is 0 for expiry, 1 for overtaking. -/
def State.declareMissed (s : State) (n : StationId) (w : Watch) (aux : Word) : State :=
  let s1 := s.report .confirmMissing (stationUnit n) w.tag aux 0
  let s2 := match s1.findInLane w.tag w.lane with
            | none => s1
            | some _ => s1.updItem w.tag (fun i => { i with confirmFail := true })
  let s3 := s2.updStation n (fun st => { st with misses := raiseMisses st.misses })
  if s3.stations[n].atLimit then s3.failStation n w.tag else s3

/-- The head watch of a station removed and declared missed (R125, R129). -/
def State.missHead (s : State) (n : StationId) (aux : Word) : State :=
  match s.stations[n].watches with
  | [] => s
  | w :: rest => (s.updStation n (fun st => { st with watches := rest })).declareMissed n w aux

/-- A watch appended to a station's queue (R125). -/
def State.appendWatch (s : State) (n : StationId) (tag : Tag) (l : LaneId) : State :=
  s.updStation n (fun st =>
    { st with watches := st.watches ++ [{ tag := tag, lane := l, timeLeft := st.config.window }] })

/-- A watch started for an item: the head is overtaken when four are pending (R125). -/
def State.startWatch (s : State) (n : StationId) (tag : Tag) (l : LaneId) : State :=
  if s.stations[n].watches.length < Config.watchDepth then s.appendWatch n tag l
  else
    let s1 := s.missHead n 1
    if s1.stations[n].runtime == .enabled then s1.appendWatch n tag l else s1

/-- A confirm edge of an owned input: the head watch answered, or a stray (R126, R127). -/
def State.takeConfirm (s : State) (n : StationId) : State :=
  s.updStation n (fun st =>
    match st.watches with
    | [] => { st with strays := st.strays + 1 }
    | _ :: rest => { st with watches := rest, misses := 0 })

/-! ### The condition and the activation (R98 to R102) -/

/-- The selector matches the verdict (R98). -/
def Selector.accepts : Selector → Verdict → Bool
  | .any, _ => true
  | .pass, .pass => true
  | .pass, .undecided => false
  | .pass, .reject => false
  | .reject, .reject => true
  | .reject, .undecided => false
  | .reject, .pass => false

/-- The condition of a station for an item (R98). -/
def StationConfig.conditionFor (c : StationConfig) (i : Item) : Bool :=
  c.selector.accepts i.verdict && c.classMask.getLsbD i.cls.val

/-- Where an ITEM-mode station's OFF entry goes (R77): position and re-keyable mark, or `none` when the item
has already passed. -/
def itemOff (c : StationConfig) (fire : Pos) (trailing : Option Pos) : Option (Pos × Bool) :=
  let capEnd := fire + c.capWord.zeroExtend 32
  match trailing with
  | none => some (capEnd, true)
  | some t =>
    let tailEnd := t + c.pulseWord.zeroExtend 32
    if ahead tailEnd fire then some (if behind tailEnd capEnd then tailEnd else capEnd, false) else none

/-- The time pulse started, or set back to the pulse word when it runs (R102). -/
def State.loadPulse (s : State) (n : StationId) : State :=
  s.updStation n (fun st =>
    { st with pulse := some { left := st.config.pulseWord, reloaded := st.pulse.map (fun _ => s.position.tracking) } })

/-- The holder of an activation: the OFF entry of COUNT and ITEM mode, the time pulse of TIME mode; `none` for
an ITEM-mode station that the item has passed (step 1 of R99, R100 to R102). -/
def State.placeHolder (s : State) (n : StationId) (fire : Pos) (i : Item) : Option State :=
  let c := s.stations[n].config
  match c.mode with
  | .count => some (s.place (Entry.make (.off n false) (fire + c.pulseWord.zeroExtend 32) i.tag))
  | .time => some (s.loadPulse n)
  | .item => (itemOff c fire i.trailing).map (fun r => s.place (Entry.make (.off n r.2) r.1 i.tag))

/-- Steps 2 and 3 of R99: the fired mask mark, and the watch of a station with a confirm input. -/
def State.markAndWatch (s : State) (n : StationId) (i : Item) : State :=
  let s1 := s.updItem i.tag (fun x => { x with fired := x.fired ||| BitVec.twoPow 16 n.val })
  match s1.stations[n].config.confirm with
  | none => s1
  | some _ => s1.startWatch n i.tag i.lane

/-- An ON entry handed to its station (R74, R98, R99). -/
def State.fireOn (s : State) (n : StationId) (fire : Pos) (tag : Tag) : State :=
  match s.findItem tag with
  | none => s
  | some i =>
    if s.stations[n].config.conditionFor i then
      match s.placeHolder n fire i with
      | none => s
      | some s1 => s1.markAndWatch n i
    else s

/-! ### Time (R102, R103, R128, R129) -/

/-- A station's time pulse stopped; it ceases to be a holder (R103). -/
def State.endPulse (s : State) (n : StationId) : State := s.updStation n (fun st => { st with pulse := none })

/-- The time pulse at the end of a time: the end of the time that an activation of this moment has replaced leaves it
running with the full pulse word (R104); any other stops it (R103). -/
def TimePulse.atEnd (here : Pos) (p : TimePulse) : Option TimePulse :=
  if p.reloaded = some here then some { p with reloaded := none } else none

/-- The end of a station's time pulse is taken (R103, R104). -/
def State.takePulseEnd (s : State) (n : StationId) : State :=
  s.updStation n (fun st => { st with pulse := st.pulse.bind (TimePulse.atEnd s.position.tracking) })

end Sys2Proof.Machine
end

