-- ==== Sys2Proof/Machine/Firing.lean ====
section
/-! DEFINITION. The action list at work: firing in TRACKING, reached marks in HALTED, the catch-up (sections
4.4 and 4.7). -/

namespace Sys2Proof.Machine

/-- An entry that has left the list is acted on (R72 to R74): an OFF entry's holder went with it. -/
def State.fireEntry (s : State) (e : Entry) : State :=
  match e.kind with
  | .off _ _ => s
  | .deadline => s.fireDeadline e.tag
  | .on n => s.fireOn n e.fire e.tag
  | .retire => s.retireItem e.tag

/-- An entry at the tracking position. -/
def State.due (s : State) (e : Entry) : Bool := e.fire == s.position.tracking

/-- The entries at the tracking position fired one after another, in list order (R71); an entry that an earlier
one of the same firing removes is not taken (R78). `fuel` bounds the number of entries. -/
def State.fireDue : Nat → State → State
  | 0, s => s
  | fuel + 1, s =>
    match takeFirst s.due s.list.entries with
    | none => s
    | some (e, rest) => State.fireDue fuel ((s.updEntries (fun _ => rest)).fireEntry e)

/-- The entries at the tracking position marked as reached (R81). -/
def State.markReached (s : State) : State :=
  s.updEntries (fun es => es.map (fun e => if s.due e then { e with reached := true } else e))

/-- What the list does at an advance (R71, R81). -/
def State.listAdvance (s : State) : State :=
  match s.control.op with
  | .setup => s
  | .tracking => State.fireDue s.list.entries.length s
  | .halted => s.markReached

/-- An ON entry taken as ACTION_MISSED (R83). -/
def State.missAction (s : State) (n : StationId) (tag : Tag) : State :=
  (s.updItem tag (fun i => { i with missed := true })).report .actionMissed (stationUnit n) tag 0 0

/-- A reached entry taken in the catch-up (R82). -/
def State.catchEntry (s : State) (e : Entry) : State :=
  match e.kind with
  | .off _ _ => s
  | .deadline => s.fireDeadline e.tag
  | .on n => s.missAction n e.tag
  | .retire => s.retireItem e.tag

/-- The catch-up: every reached entry taken in list order, with the number taken and the number of ON entries
missed (R82 to R84). `fuel` bounds the number of entries. -/
def State.catchUpLoop : Nat → Nat → Nat → State → State × Nat × Nat
  | 0, taken, missed, s => (s, taken, missed)
  | fuel + 1, taken, missed, s =>
    match takeFirst (fun e => e.reached) s.list.entries with
    | none => (s, taken, missed)
    | some (e, rest) =>
      State.catchUpLoop fuel (taken + 1) (if e.isOn then missed + 1 else missed)
        ((s.updEntries (fun _ => rest)).catchEntry e)

/-- The firing point brought to the tracking position. -/
def State.settleFiringPoint (s : State) : State :=
  { s with list := { s.list with firingPoint := s.position.tracking } }

/-- The catch-up of a RESUME, after which the firing point is the tracking position (R82). -/
def State.catchUp (s : State) : State × Nat × Nat :=
  let r := State.catchUpLoop s.list.entries.length 0 0 s
  (r.1.settleFiringPoint, r.2)

end Sys2Proof.Machine
end

