-- ==== Sys2Proof/Machine/Detectors.lean ====
section
/-! DEFINITION. The lane detectors (Chapter 2): leading and trailing edges, findings, input changes, advances
and re-sampling. -/

namespace Sys2Proof.Machine

/-! ### Findings (R28, R29) -/

/-- The conditions of a LONG finding on an item of the lane (R28), the item's record in hand. -/
def State.longReady (s : State) (l : LaneId) (i : Item) : Bool :=
  s.lanes[l].config.maxLength != 0 && s.inputActive l && !i.long
    && s.hasReached (i.leading + wide s.lanes[l].config.maxLength)

/-- A LONG finding: flag, ITEM_JAM, size policy (R28, R29). -/
def State.findLong (s : State) (l : LaneId) (tag : Tag) : State :=
  ((s.updItem tag (fun i => { i with long := true })).report .itemJam (laneUnit l) tag 0 0).applySizePolicy l tag 0xF1

/-- The item on which the lane makes a LONG finding now: OCCUPIED, linked, no trailing candidate, not blanked,
and the conditions of R28. -/
def State.longDue (s : State) (l : LaneId) : Option Item :=
  match s.lanes[l].detector with
  | .occupied (some tag) none =>
    if s.blanked then none else (s.findItem tag).filter (s.longReady l)
  | .occupied (some _) (some _) => none
  | .occupied none _ => none
  | .off => none
  | .waitClear => none
  | .clear => none
  | .filtering _ => none

/-- A LONG finding made when its conditions hold (R28). -/
def State.checkLong (s : State) (l : LaneId) : State :=
  match s.longDue l with
  | none => s
  | some i => s.findLong l i.tag

/-! ### The leading edge (R22 to R24) -/

/-- The edge is closer to the previous leading position than the min pitch (R22). -/
def Lane.tooClose (x : Lane) (pos : Pos) : Bool :=
  match x.previous with
  | none => false
  | some q => x.config.minPitch != 0 && decide ((pos - q).toNat < x.config.minPitch.toNat)

/-- A refused admission (R24). -/
def State.refuseAdmission (s : State) (l : LaneId) (reason : Word) : State :=
  let s1 := (s.countLane l .refused).report .itemRefused (laneUnit l) 0 reason 0
  let s2 := s1.setDetector l (.occupied none none)
  match s2.lanes[l].config.overflow with
  | .drop => s2
  | .halt => s2.requestHalt .queueFull

/-- The lane after its item is admitted: the link, the count, OCCUPIED, and the LONG finding that may come at
once (R23, R28). -/
def State.linkAdmitted (s : State) (l : LaneId) (tag : Tag) : State :=
  ((s.countLane l .admitted).setDetector l (.occupied (some tag) none)).checkLong l

/-- The admission request of an accepted edge (R23, R24). -/
def State.requestAdmission (s : State) (l : LaneId) (pos : Pos) : State :=
  match s.judgeAdmission l with
  | .admitted tag => (s.admitItem l pos tag).linkAdmitted l tag
  | .noRecord => s.refuseAdmission l 1
  | .noSlots => s.refuseAdmission l 2

/-- A leading edge accepted at `pos` (R21, R22): counted, checked for pitch, then the lane's previous leading
position whatever the outcome. -/
def State.acceptLeading (s : State) (l : LaneId) (pos : Pos) : State :=
  let s1 := s.countLane l .leading
  let s2 := if s1.lanes[l].tooClose pos then
      (s1.countLane l .pitchIgnored).setDetector l (.occupied none none)
    else s1.requestAdmission l pos
  s2.updLane l (fun x => { x with previous := some pos })

/-! ### The trailing edge (R25, R26) -/

/-- Step 1 of R26: trailing position and length stored (R53). -/
def State.storeTrailing (s : State) (i : Item) (pos : Pos) : State :=
  s.updItem i.tag (fun x => { x with trailing := some pos, length := some (pos - i.leading) })

/-- Step 2 of R26: the LONG finding of a length that is not less than the max length. -/
def State.longAtTrailing (s : State) (l : LaneId) (i : Item) (length : Pos) : State :=
  if s.lanes[l].config.maxLength != 0 && decide (s.lanes[l].config.maxLength.toNat ≤ length.toNat) && !i.long then
    s.findLong l i.tag
  else s

/-- Step 3 of R26: the SHORT finding (R29). -/
def State.shortAtTrailing (s : State) (l : LaneId) (tag : Tag) (length : Pos) : State :=
  if s.lanes[l].config.minLength != 0 && decide (length.toNat < s.lanes[l].config.minLength.toNat) then
    (s.updItem tag (fun i => { i with short := true })).applySizePolicy l tag 0xF0
  else s

/-- The report of a trailing edge for the linked item, in the order of R26. -/
def State.reportTrailing (s : State) (l : LaneId) (i : Item) (pos : Pos) : State :=
  let length := pos - i.leading
  let s1 := ((s.storeTrailing i pos).longAtTrailing l i length).shortAtTrailing l i.tag length
  (s1.rekey i.tag pos).report .itemLength (laneUnit l) i.tag (lo length) (hi length)

/-- A trailing edge accepted at `pos` by an OCCUPIED lane with this link (R25, R26). -/
def State.acceptTrailing (s : State) (l : LaneId) (link : Option Tag) (pos : Pos) : State :=
  let s1 := match link.bind s.findItem with
            | none => s
            | some i => s.reportTrailing l i pos
  s1.setDetector l .clear

/-! ### What makes a lane act -/

/-- The lane's input has changed to the level now at its pin (R19, R20, R21, R25). -/
def State.laneInput (s : State) (l : LaneId) : State :=
  if s.blanked then s
  else
    let filter := s.lanes[l].config.filter
    let here := s.position.tracking
    match s.lanes[l].detector with
    | .off => s
    | .waitClear => if s.inputActive l then s else s.setDetector l .clear
    | .clear =>
      if s.inputActive l then
        (if filter = 0 then s.acceptLeading l here else s.setDetector l (.filtering here))
      else s
    | .filtering _ =>
      if s.inputActive l then s else (s.countLane l .glitches).setDetector l .clear
    | .occupied link _ =>
      if s.inputActive l then (s.setDetector l (.occupied link none)).checkLong l
      else if filter = 0 then s.acceptTrailing l link here
      else s.setDetector l (.occupied link (some here))

/-- The lane has something to take at an advance: a leading edge, a trailing edge or a LONG finding (R21, R25,
R28). -/
def State.laneDue (s : State) (l : LaneId) : Bool :=
  let filter := s.lanes[l].config.filter.zeroExtend 32
  !s.blanked &&
  match s.lanes[l].detector with
  | .filtering capture => s.inputActive l && s.hasReached (capture + filter)
  | .occupied _ (some candidate) => !s.inputActive l && s.hasReached (candidate + filter)
  | .occupied _ none => (s.longDue l).isSome
  | .off => false
  | .waitClear => false
  | .clear => false

/-- What a lane does at an advance of the tracking position (R21, R25, R28). -/
def State.laneAdvance (s : State) (l : LaneId) : State :=
  if s.laneDue l then
    match s.lanes[l].detector with
    | .filtering capture => s.acceptLeading l capture
    | .occupied link (some candidate) => s.acceptTrailing l link candidate
    | .occupied _ none => s.checkLong l
    | .off => s
    | .waitClear => s
    | .clear => s
  else s

/-- What a lane does when blanking ends (R31); nothing when it is still blanked. -/
def State.laneResample (s : State) (l : LaneId) : State :=
  if s.blanked then s
  else
    let here := s.position.tracking
    match s.lanes[l].detector with
    | .off => s
    | .waitClear => if s.inputActive l then s else s.setDetector l .clear
    | .clear =>
      if s.inputActive l then
        (if s.lanes[l].config.filter = 0 then s.acceptLeading l here else s.setDetector l (.filtering here))
      else s
    | .filtering _ =>
      if s.inputActive l then s.setDetector l (.filtering here)
      else (s.countLane l .glitches).setDetector l .clear
    | .occupied link _ =>
      if s.inputActive l then (s.setDetector l (.occupied link none)).checkLong l
      else s.acceptTrailing l link here

/-- The re-sampling of a lane reaches state it shares with other lanes (the queue, the list, the event queue);
otherwise it touches the lane alone, and its place in the order makes no difference. -/
def State.resampleShares (s : State) (l : LaneId) : Bool :=
  match s.lanes[l].detector with
  | .off => false
  | .waitClear => false
  | .clear => s.inputActive l && s.lanes[l].config.filter == 0
  | .filtering _ => false
  | .occupied none _ => false
  | .occupied (some tag) _ =>
    if s.inputActive l then ((s.findItem tag).filter (s.longReady l)).isSome else true

/-- Every enabled lane re-samples (R31): first the lanes whose re-sampling is theirs alone, then the others in
a free order (notes/assumptions/2.md). -/
def State.resampleAll (s : State) : State :=
  let alone := laneIds.filter (fun l => !s.resampleShares l)
  let shared := laneIds.filter s.resampleShares
  inFreeOrder (fun l t => State.laneResample t l) shared.length shared (alone.foldl State.laneResample s)

/-- A detector as a lane of this configuration takes it up at START (R18). -/
def Lane.started (active : Bool) (x : Lane) : Lane :=
  { x with
    detector := if x.config.enabled then (if active then .waitClear else .clear) else .off
    previous := none }

/-- The lane on a return to SETUP (R18). -/
def Lane.stopped (x : Lane) : Lane := { x with detector := .off, previous := none }

end Sys2Proof.Machine
end

