-- ==== Sys2Proof/Machine/Belt.lean ====
section
/-! DEFINITION. The belt and the clock: what an advance sets to work, encoder steps, the tick (Chapter 1,
R71, R81, R102, R128). -/

namespace Sys2Proof.Machine

/-! ### Work that may be taken in any order -/

/-- One piece of work within a step. -/
inductive Task where
  /-- a lane takes the advance -/
  | lane (l : LaneId)
  /-- the action list takes the advance -/
  | list
  /-- a time pulse ends -/
  | pulse (n : StationId)
  /-- operating control takes a halt request -/
  | halt (c : Cause)
  deriving DecidableEq, Repr

/-- A piece of work done. -/
def State.runTask (s : State) : Task → State
  | .lane l => s.laneAdvance l
  | .list => s.listAdvance
  | .pulse n => s.endPulse n
  | .halt c => s.takeHalt c

/-- The cause of a halt request among the pieces of work. -/
def Task.cause : Task → Option Cause
  | .halt c => some c
  | .lane _ => none
  | .list => none
  | .pulse _ => none

/-- What may be taken next: a piece of the work left, or a halt request on its way. -/
def State.candidates (s : State) (work : List Task) : List Task := work ++ s.control.requests.map .halt

/-- Pieces of work done in a free order, the halt requests on their way among them; a request that is still on its way
when the work is done stays so (R78, R140; notes/assumptions/2.md). `fuel` bounds the number of pieces and requests. -/
def State.runTasks : Nat → List Task → State → State
  | 0, _, s => s
  | _ + 1, [], s => s
  | fuel + 1, x :: work, s =>
    let candidates := s.candidates (x :: work)
    match pick (Config.choice s.choices) candidates with
    | none => s
    | some (task, rest) =>
      State.runTasks fuel (rest.filter (fun t => t.cause.isNone))
        (State.runTask ((s.countChoice candidates).withRequests (rest.filterMap Task.cause)) task)

/-- More pieces of work than one step can have: four lanes, the list, sixteen pulses, and a request of each
lane and station. -/
def taskFuel : Nat := 64

/-! ### Advances and steps of the belt (R5 to R11) -/

/-- The blocks with something to take at an advance. -/
def State.advanceTasks (s : State) : List Task :=
  (laneIds.filter s.laneDue).map .lane ++ (if s.list.entries.any s.due then [.list] else [])

/-- In TRACKING the list has fired up to the tracking position (section 4.2). -/
def State.settleTracking (s : State) : State :=
  match s.control.op with
  | .setup => s
  | .tracking => s.settleFiringPoint
  | .halted => s

/-- The tracking position has advanced: the detectors and the list act on it (R8, R71, R81). -/
def State.takeAdvance (s : State) : State := (State.runTasks taskFuel s.advanceTasks s).settleTracking

/-- The counter and the tracking position set. -/
def State.setPositions (s : State) (counter tracking : Pos) : State :=
  { s with position := { s.position with counter := counter, tracking := tracking } }

/-- In SETUP the tracking position and the firing point follow the counter (R7, R85). -/
def State.moveInSetup (s : State) (counter : Pos) : State := (s.setPositions counter counter).settleFiringPoint

/-- A step that does not advance the tracking position, outside SETUP: the counter moves, and a regain in
TRACKING makes the lanes re-sample (R10). -/
def State.moveCounter (s : State) (counter : Pos) : State :=
  let s1 := s.setPositions counter s.position.tracking
  if s.reverse != 0 && s1.reverse == 0 && s1.control.op == .tracking then s1.resampleAll else s1

/-- A forward step (R5, R7, R8, R10). -/
def State.forwardStep (s : State) : State :=
  let counter := s.position.counter + 1
  match s.control.op with
  | .setup => s.moveInSetup counter
  | .tracking =>
    if s.reverse = 0 then (s.setPositions counter (s.position.tracking + 1)).takeAdvance else s.moveCounter counter
  | .halted =>
    if s.reverse = 0 then (s.setPositions counter (s.position.tracking + 1)).takeAdvance else s.moveCounter counter

/-- The reverse amount exceeds the reverse tolerance (R11). -/
def State.overReverse (s : State) : Bool := decide (s.position.tolerance.toNat < s.reverse.toNat)

/-- A backward step (R5, R7, R10, R11). -/
def State.backwardStep (s : State) : State :=
  let counter := s.position.counter - 1
  match s.control.op with
  | .setup => s.moveInSetup counter
  | .tracking =>
    let s1 := s.moveCounter counter
    if s1.overReverse && !s.overReverse then s1.requestHalt .overReverse else s1
  | .halted => s.moveCounter counter

/-- What a transition is judged to be (R1, R2, R3). -/
inductive Motion where
  | forward
  | backward
  | error
  | none
  deriving DecidableEq, Repr

/-- QUAD decoding: the table of R1, from the reference (A, B) to the new pair. -/
def quadMotion (a b a' b' : Level) : Motion :=
  match a, b, a', b' with
  | false, false, true, false => .forward
  | false, false, false, true => .backward
  | true, false, true, true => .forward
  | true, false, false, false => .backward
  | true, true, false, true => .forward
  | true, true, true, false => .backward
  | false, true, false, false => .forward
  | false, true, true, true => .backward
  | false, false, true, true => .error
  | true, true, false, false => .error
  | true, false, false, true => .error
  | false, true, true, false => .error
  | false, false, false, false => .none
  | false, true, false, true => .none
  | true, false, true, false => .none
  | true, true, true, true => .none

/-- PULSE_DIR decoding: a rise of A is a count, with the new level of B as direction (R2,
notes/assumptions/9.md). -/
def pulseMotion (a a' b' : Level) : Motion :=
  match a, a', b' with
  | false, true, false => .forward
  | false, true, true => .backward
  | false, false, _ => .none
  | true, _, _ => .none

/-- The direction invert (R3). -/
def Motion.inverted (m : Motion) (invert : Bool) : Motion :=
  match invert, m with
  | true, .forward => .backward
  | true, .backward => .forward
  | true, .error => .error
  | true, .none => .none
  | false, m => m

/-- The transition to the pair (a, b), judged against the decoder reference (R1 to R3). -/
def PositionUnit.judge (p : PositionUnit) (a b : Level) : Motion :=
  match p.mode with
  | .quad => (quadMotion p.refA p.refB a b).inverted p.invert
  | .pulseDir => (pulseMotion p.refA a b).inverted p.invert

/-- An encoder error: counted, and by the operating state nothing more, a halt request, or the bit of the mask
(R4). -/
def State.encoderError (s : State) : State :=
  { s with
    position := { s.position with errors := s.position.errors + 1 }
    control :=
      match s.control.op with
      | .setup => s.control
      | .tracking => { s.control with requests := s.control.requests ++ [.encoder] }
      | .halted => { s.control with causeMask := s.control.causeMask ||| Cause.encoder.bit } }

/-- What a judged transition does. -/
def State.move (s : State) : Motion → State
  | .forward => s.forwardStep
  | .backward => s.backwardStep
  | .error => s.encoderError
  | .none => s

/-- The pair of levels taken as the decoder reference (R1, R2, R4). -/
def State.setReference (s : State) (a b : Level) : State :=
  { s with position := { s.position with refA := a, refB := b } }

/-! ### The tick (R102, R128, R178) -/

/-- One taken from a time left; nothing is taken from 0. -/
def oneLess (t : Word) : Word := if t = 0 then 0 else t - 1

/-- One tick taken from a station's time pulse and from each of its watches (R102, R128). -/
def Station.countDown (st : Station) : Station :=
  { st with pulse := st.pulse.map (fun p => { left := oneLess p.left, reloaded := none })
            watches := st.watches.map (fun w => { w with timeLeft := oneLess w.timeLeft }) }

/-- The head watch of a station has no time left. -/
def State.watchDue (s : State) (n : StationId) : Bool :=
  match s.stations[n].watches with
  | [] => false
  | w :: _ => w.timeLeft == 0

/-- The watches of a station with no time left expire, from the head of its queue (R129). -/
def State.expireDue : Nat → StationId → State → State
  | 0, _, s => s
  | fuel + 1, n, s => if s.watchDue n then State.expireDue fuel n (s.missHead n 0) else s

/-- A time pulse has no time left. -/
def State.pulseDue (s : State) (n : StationId) : Bool := s.stations[n].pulse.any (fun p => p.left == 0)

/-- The end of the time pulses with no time left, among the halt requests of the tick: without a request the order
makes no difference, with one it is free (R117). -/
def State.endDuePulses (s : State) : State :=
  let due := stationIds.filter s.pulseDue
  match s.control.requests with
  | [] => due.foldl State.endPulse s
  | _ :: _ => State.runTasks taskFuel (due.map .pulse) s

/-- A tick: every running time is counted down, the watches that run out expire, the stations one after the
other in a free order (R129), and the time pulses that run out end (R103). -/
def State.tick (s : State) : State :=
  let s1 := { s with stations := mapAll Station.countDown s.stations }
  let due := stationIds.filter s1.watchDue
  (inFreeOrder (fun n t => State.expireDue t.stations[n].watches.length n t) due.length due s1).endDuePulses

/-- The phase of the divider moves on by one period of CLKIN, and every TICK_DIV periods are a tick (R178). -/
def State.clock (s : State) : State :=
  if s.globals.tickDiv.toNat ≤ s.globals.tickPhase.toNat + 1 then
    State.tick { s with globals := { s.globals with tickPhase := 0 } }
  else { s with globals := { s.globals with tickPhase := s.globals.tickPhase + 1 } }

/-- One period of CLKIN, before which every request on its way has arrived. -/
def State.clockPeriod (s : State) : State := if s.running then s.arriveHalts.clock.arriveHalts else s

end Sys2Proof.Machine
end

