-- ==== Sys2Proof/Machine/Inputs.lean ====
section
/-! DEFINITION. Events on the pins and of the clock: ENCODER_TRANSITION, TIME_PULSE_END, WATCH_EXPIRY,
CONFIRM_EDGE, DET_INPUT_CHANGE, HLD_ASSERT, HLD_RELEASE. In reset and without power a pin changes its level and
the part takes nothing (R149, R150). -/

namespace Sys2Proof.Machine

/-- A pin event: the pin takes its level and, where the part samples it, the part takes the event amid the halt
requests on their way (R143). -/
def State.atPin (s : State) (pin : State → State) (event : State → State) : Host.Outcome State Fault Refusal :=
  .next (s.amid (fun t => if t.running then event (pin t) else pin t))

/-- The levels at the encoder pins set. -/
def State.setEncoder (s : State) (a b : Level) : State := { s with pins := { s.pins with encA := a, encB := b } }

/-- ENCODER_TRANSITION (R1 to R5): judged against the reference, which takes the new pair. -/
def execEncoderTransition (a b : Level) (s : State) : Host.Outcome State Fault Refusal :=
  s.atPin (fun t => t.setEncoder a b) (fun t => (t.setReference a b).move (s.position.judge a b))

/-- TIME_PULSE_END (R103, R104): the station's running time pulse stops, unless an activation of this moment has
reloaded it. -/
def execTimePulseEnd (n : StationId) (s : State) : Host.Outcome State Fault Refusal :=
  s.atPin id (fun t => t.takePulseEnd n)

/-- WATCH_EXPIRY (R129): the head watch of the station is declared missed, with aux A 0. -/
def execWatchExpiry (n : StationId) (s : State) : Host.Outcome State Fault Refusal :=
  s.atPin id (fun t => t.missHead n 0)

/-- The edge is the confirm edge of the station (R123). -/
def Station.confirmsOn (st : Station) (rising : Bool) : Bool := st.config.falling != rising

/-- An edge of an input is taken by its owner, when it is its confirm edge (R123, R126, R127). -/
def State.takeEdge (s : State) (input : InputId) (rising : Bool) : State :=
  match s.owner input with
  | none => s
  | some n => if s.stations[n].confirmsOn rising then s.takeConfirm n else s

/-- The level at a CFM pin set. -/
def State.setCfm (s : State) (input : InputId) (level : Level) : State :=
  { s with pins := { s.pins with cfm := upd s.pins.cfm input (fun _ => level) } }

/-- The sample reference of a CFM input set (R122). -/
def State.sampleCfm (s : State) (input : InputId) (level : Level) : State :=
  { s with cfmRef := upd s.cfmRef input (fun _ => level) }

/-- CONFIRM_EDGE (R122, R126, R127): a change of level against the sample reference is an edge. -/
def execConfirmEdge (input : InputId) (rising : Bool) (s : State) : Host.Outcome State Fault Refusal :=
  s.atPin (fun t => t.setCfm input rising) (fun t =>
    if s.cfmRef[input] = rising then t else (t.sampleCfm input rising).takeEdge input rising)

/-- The level at a DET pin set. -/
def State.setDet (s : State) (l : LaneId) (level : Level) : State :=
  { s with pins := { s.pins with det := upd s.pins.det l (fun _ => level) } }

/-- DET_INPUT_CHANGE (R19, R20, R21, R25): the lane acts on a change of level. -/
def execDetInputChange (l : LaneId) (level : Level) (s : State) : Host.Outcome State Fault Refusal :=
  s.atPin (fun t => t.setDet l level) (fun t => if s.pins.det[l] = level then t else t.laneInput l)

/-- The level at the HLD pin set. -/
def State.setHld (s : State) (level : Level) : State := { s with pins := { s.pins with hld := level } }

/-- The latest sample of HLD (R144). -/
def State.sampleHld (s : State) (asserted : Bool) : State :=
  { s with control := { s.control with hldAsserted := asserted } }

/-- HLD_ASSERT (R144): at the sample in which HLD becomes asserted, a halt request with cause HOLD_INPUT. -/
def execHldAssert (s : State) : Host.Outcome State Fault Refusal :=
  s.atPin (fun t => t.setHld false) (fun t =>
    if s.control.hldAsserted then t else (t.sampleHld true).takeHalt .holdInput)

/-- HLD_RELEASE (R144): the level is shown; nothing resumes. -/
def execHldRelease (s : State) : Host.Outcome State Fault Refusal :=
  s.atPin (fun t => t.setHld true) (fun t => t.sampleHld false)

end Sys2Proof.Machine
end

