-- ==== Sys2Proof/Machine/Settings.lean ====
section
/-! DEFINITION. Completion of the configuration commands: SET_GLOBAL, GET_GLOBAL, SET_LANE, GET_LANE,
SET_STATION, GET_STATION, SET_OUTPUT, FORCE_OUTPUT, PRESET_POSITION. -/

namespace Sys2Proof.Machine

/-- A command taken in SETUP only: BAD_STATE elsewhere (R177). -/
def inSetup (judge : State → Answer) (s : State) : Answer :=
  match s.control.op with
  | .setup => judge s
  | .tracking => .refuse .badState s
  | .halted => .refuse .badState s

/-- The global settings written: a change of TICK_DIV starts a new tick, a change of encoder mode takes the
present pin levels as the reference (R3, R178). -/
def State.writeGlobals (s : State) (g : GlobalWords) : State :=
  let sameMode := s.position.mode == g.mode
  { s with
    globals := { tickDiv := g.tickDiv, tickPhase := if s.globals.tickDiv = g.tickDiv then s.globals.tickPhase else 0,
                 haltOnFail := g.haltOnFail }
    position := { s.position with
                  mode := g.mode, invert := g.invert, tolerance := g.tolerance
                  refA := if sameMode then s.position.refA else s.pins.encA
                  refB := if sameMode then s.position.refB else s.pins.encB }
    events := { s.events with mask := g.mask } }

/-- SET_GLOBAL judged by the command interface (R178). -/
def judgeSetGlobal : State → Answer := inSetup (fun s =>
  match globalOf s.host.copy with
  | none => .refuse .badParam s
  | some g => .done noWords (s.writeGlobals g))

/-- SET_GLOBAL (R178). -/
def execSetGlobal (s : State) : Host.Outcome State Fault Refusal := complete 0x01 judgeSetGlobal s

/-- GET_GLOBAL judged (R179). -/
def judgeGetGlobal (s : State) : Answer :=
  .done (words (s.globals.tickDiv.zeroExtend 16) (globalFlags s) s.position.tolerance
    (s.events.mask.zeroExtend 16) (s.events.threshold.zeroExtend 16) 0) s

/-- GET_GLOBAL (R179). -/
def execGetGlobal (s : State) : Host.Outcome State Fault Refusal := complete 0x02 judgeGetGlobal s

/-- SET_LANE judged by the lane (R16). -/
def judgeSetLane : State → Answer := inSetup (fun s =>
  match setLaneNumber s.host.copy, laneConfigOf s.host.copy with
  | some l, some c => .done noWords (s.updLane l (fun x => { x with config := c }))
  | none, _ => .refuse .badParam s
  | some _, none => .refuse .badParam s)

/-- SET_LANE (R16). -/
def execSetLane (s : State) : Host.Outcome State Fault Refusal := complete 0x03 judgeSetLane s

/-- The result words of GET_LANE (R17, section 10.7). -/
def laneWords (l : LaneId) (x : Lane) (part : Fin 2) : Vector Word 6 :=
  match part with
  | 0 => words (laneFlags l x.config) (x.config.filter.zeroExtend 16) x.config.minPitch x.config.minLength
           (lo (wide x.config.maxLength)) (hi (wide x.config.maxLength))
  | 1 => words (lo (wide x.config.decision)) (hi (wide x.config.decision)) (lo (wide x.config.exit))
           (hi (wide x.config.exit)) x.detector.code (x.detector.link.getD 0)

/-- GET_LANE judged (R17). -/
def judgeGetLane (s : State) : Answer :=
  match wholeBelow 4 s.host.copy[0], wholeBelow 2 s.host.copy[1] with
  | some l, some part => .done (laneWords l s.lanes[l] part) s
  | none, _ => .refuse .badParam s
  | some _, none => .refuse .badParam s

/-- GET_LANE (R17). -/
def execGetLane (s : State) : Host.Outcome State Fault Refusal := complete 0x04 judgeGetLane s

/-- SET_STATION judged by the station (R87). -/
def judgeSetStation : State → Answer := inSetup (fun s =>
  match wholeBelow 16 s.host.copy[0], stationConfigOf s.host.copy with
  | some n, some c => .done noWords (s.updStation n (fun x => { x with config := c }))
  | none, _ => .refuse .badParam s
  | some _, none => .refuse .badParam s)

/-- SET_STATION (R87). -/
def execSetStation (s : State) : Host.Outcome State Fault Refusal := complete 0x05 judgeSetStation s

/-- The result words of GET_STATION (R88, section 10.7). -/
def stationWords (st : Station) (part : Fin 2) : Vector Word 6 :=
  match part with
  | 0 => words (stationFlags st.config) (fieldAt 0 st.config.lane.val ||| fieldAt 8 st.config.output.val)
           (lo (wide st.config.offset)) (hi (wide st.config.offset)) st.config.classMask 0
  | 1 => words st.config.pulseWord st.config.capWord st.config.window (stationStateWord st)
           (st.misses.zeroExtend 16) st.strays

/-- GET_STATION judged (R88). -/
def judgeGetStation (s : State) : Answer :=
  match wholeBelow 16 s.host.copy[0], wholeBelow 2 s.host.copy[1] with
  | some n, some part => .done (stationWords s.stations[n] part) s
  | none, _ => .refuse .badParam s
  | some _, none => .refuse .badParam s

/-- GET_STATION (R88). -/
def execGetStation (s : State) : Host.Outcome State Fault Refusal := complete 0x06 judgeGetStation s

/-- SET_OUTPUT judged by the output line (R108). -/
def judgeSetOutput : State → Answer := inSetup (fun s =>
  match wholeBelow 16 s.host.copy[0], wholeBelow 2 s.host.copy[1], wholeBelow 2 s.host.copy[2] with
  | some o, some polarity, some fault =>
    .done (words (flagBit 0 s.outputs[o].activeLow) s.outputs[o].fault.code s.outputs[o].forced.code
        (flagBit 0 (s.lineActive o)) 0 0)
      (s.updOutput o (fun x => { x with activeLow := polarity == 1, fault := if fault = 1 then .hold else .off }))
  | none, _, _ => .refuse .badParam s
  | some _, none, _ => .refuse .badParam s
  | some _, some _, none => .refuse .badParam s)

/-- SET_OUTPUT (R108). -/
def execSetOutput (s : State) : Host.Outcome State Fault Refusal := complete 0x07 judgeSetOutput s

/-- The forced state an action gives: RELEASE, INACTIVE, ACTIVE (R118). -/
def forcedOf (action : Fin 3) : Forced :=
  match action with
  | 0 => .none
  | 1 => .inactive
  | 2 => .active

/-- FORCE_OUTPUT judged by the output line (R118). -/
def judgeForceOutput : State → Answer := inSetup (fun s =>
  match wholeBelow 16 s.host.copy[0], wholeBelow 3 s.host.copy[1] with
  | some o, some action =>
    let s1 := s.updOutput o (fun x => { x with forced := forcedOf action })
    .done (words s.outputs[o].forced.code (maskOf stationIds (fun n => s1.outputs[n].forced == .active))
        (maskOf stationIds (fun n => s1.outputs[n].forced == .inactive))
        (maskOf stationIds s1.lineActive) 0 0) s1
  | none, _ => .refuse .badParam s
  | some _, none => .refuse .badParam s)

/-- FORCE_OUTPUT (R118). -/
def execForceOutput (s : State) : Host.Outcome State Fault Refusal := complete 0x08 judgeForceOutput s

/-- PRESET_POSITION judged by the position unit (R6). -/
def judgePresetPosition : State → Answer := inSetup (fun s =>
  .done noWords (s.moveInSetup (joinWords s.host.copy[0] s.host.copy[1])))

/-- PRESET_POSITION (R6). -/
def execPresetPosition (s : State) : Host.Outcome State Fault Refusal := complete 0x09 judgePresetPosition s

end Sys2Proof.Machine
end

