-- ==== Sys2Proof/Machine/Running.lean ====
section
/-! DEFINITION. Completion of the commands of operating control: START, STOP, HALT, RESUME, REINIT (Chapter 8),
with the configuration checks of section 5.6. -/

namespace Sys2Proof.Machine

/-! ### The configuration checks (section 5.6) -/

/-- A failed check: its number and what RESULT1 reports. -/
structure CheckFailure where
  check : Word
  reported : Word
  deriving DecidableEq, Repr

/-- Check 2 holds for the station: its lane is enabled. -/
def State.check2 (s : State) (n : StationId) : Bool := s.lanes[s.stations[n].config.lane].config.enabled

/-- Check 3: filter distance < offset < exit distance. -/
def State.check3 (s : State) (n : StationId) : Bool :=
  let c := s.stations[n].config
  let x := s.lanes[c.lane].config
  decide (x.filter.toNat < c.offset.toNat) && decide (c.offset.toNat < x.exit.toNat)

/-- Check 4: a verdict-dependent station lies at or beyond the decision distance. -/
def State.check4 (s : State) (n : StationId) : Bool :=
  let c := s.stations[n].config
  !c.verdictDependent || decide (s.lanes[c.lane].config.decision.toNat ≤ c.offset.toNat)

/-- Check 5 of a lane: filter distance < decision distance < exit distance. -/
def State.check5 (s : State) (l : LaneId) : Bool :=
  let x := s.lanes[l].config
  decide (x.filter.toNat < x.decision.toNat) && decide (x.decision.toNat < x.exit.toNat)

/-- Two stations share a confirm input other than NONE (check 6). -/
def State.shareConfirm (s : State) (n m : StationId) : Bool :=
  s.stations[n].config.confirm.isSome && s.stations[n].config.confirm == s.stations[m].config.confirm

/-- The stations whose enabled field is on (R105). -/
def State.configured (s : State) : List StationId := stationIds.filter (fun n => s.stations[n].config.enabled)

/-- The stations for which a check fails, as a failure. -/
def firstFailure {α : Type} (check : Word) (fails : α → Bool) (code : α → Nat) (candidates : List α) :
    Option CheckFailure :=
  (candidates.find? fails).map (fun x => { check := check, reported := BitVec.ofNat 16 (code x) })

/-- The lane holds a configured verdict-dependent station (check 5 at START). -/
def State.needsDecision (s : State) (l : LaneId) : Bool :=
  s.configured.any (fun n => s.stations[n].config.lane == l && s.stations[n].config.verdictDependent)

/-- The configuration checks of START, in number order, the first failure found (R105). -/
def State.startFailure (s : State) : Option CheckFailure :=
  (if laneIds.any (fun l => s.lanes[l].config.enabled) then none else some { check := 1, reported := 0 })
    <|> firstFailure 2 (fun n => !s.check2 n) Fin.val s.configured
    <|> firstFailure 3 (fun n => !s.check3 n) Fin.val s.configured
    <|> firstFailure 4 (fun n => !s.check4 n) Fin.val s.configured
    <|> firstFailure 5 (fun l => s.needsDecision l && !s.check5 l) Fin.val laneIds
    <|> firstFailure 6 (fun n => s.configured.any (fun m => decide (m < n) && s.shareConfirm n m)) Fin.val s.configured

/-- The checks of STATION_ENABLE on for one station: 2 to 6 in number order (R94). -/
def State.enableFailure (s : State) (n : StationId) : Option CheckFailure :=
  firstFailure 2 (fun m => !s.check2 m) Fin.val [n]
    <|> firstFailure 3 (fun m => !s.check3 m) Fin.val [n]
    <|> firstFailure 4 (fun m => !s.check4 m) Fin.val [n]
    <|> firstFailure 5 (fun l => s.stations[n].config.verdictDependent && !s.check5 l) Fin.val [s.stations[n].config.lane]
    <|> firstFailure 6 (fun m => m != n && s.stations[m].runtime == .enabled && s.shareConfirm n m) Fin.val stationIds

/-- CONFIG_ERROR with the check number and what it reports (R105, R94). -/
def Answer.configError (f : CheckFailure) (s : State) : Answer :=
  { code := .configError, results := words f.check f.reported 0 0 0 0, state := s }

/-! ### START (R137) -/

/-- A station as START leaves it (step 3 of R137, R90). -/
def Station.started (st : Station) : Station :=
  { st with runtime := if st.config.enabled then .enabled else .disabled, misses := 0 }

/-- The lanes as START leaves them: each samples its own input (step 6 of R137, R18). -/
def State.startLanes (s : State) : Vector Lane 4 :=
  laneIds.foldl (fun lanes l => upd lanes l (Lane.started (s.inputActive l))) s.lanes

/-- Tracking begins (steps 1 to 6 of R137). -/
def State.beginTracking (s : State) : State :=
  { s with
    position := { s.position with tracking := s.position.counter }
    lanes := s.startLanes
    list := { s.list with firingPoint := s.position.counter }
    stations := mapAll Station.started s.stations
    outputs := mapAll (fun x => { x with forced := .none }) s.outputs
    control := { s.control with op := .tracking, firstCause := none, causeMask := 0 } }

/-- One bit per lane. -/
def laneMask (p : LaneId → Bool) : Word :=
  laneIds.foldl (fun w l => w ||| flagBit l.val (p l)) 0#16

/-- START judged by operating control (R137, R105, R106). -/
def judgeStart : State → Answer := inSetup (fun s =>
  if s.control.hldAsserted then .refuse .haltActive s
  else
    match s.startFailure with
    | some f => .configError f s
    | none =>
      let s1 := s.beginTracking
      .done (words (maskOf stationIds (fun n => s1.stations[n].runtime == .enabled))
        (laneMask (fun l => s1.lanes[l].detector == .waitClear)) 0 0 0 0) s1)

/-- START (R137). -/
def execStart (s : State) : Host.Outcome State Fault Refusal := complete 0x10 judgeStart s

/-! ### The return to SETUP: STOP and REINIT (R138, R148) -/

/-- A station on a return to SETUP (R91, R133). -/
def Station.stopped (st : Station) : Station := { st with runtime := .disabled, pulse := none, watches := [] }

/-- The return to SETUP: queue and list emptied, stations, outputs, lanes and positions as R9, R18, R62, R85, R91,
R120 and R133 say. -/
def State.returnToSetup (s : State) : State :=
  let tracking := if s.reverse = 0 then s.position.tracking else s.position.counter
  { s with
    position := { s.position with tracking := tracking }
    lanes := mapAll Lane.stopped s.lanes
    queue := { s.queue with items := [] }
    list := { entries := [], firingPoint := tracking }
    stations := mapAll Station.stopped s.stations
    outputs := mapAll (fun x => { x with forced := .none, held := none }) s.outputs
    control := { s.control with op := .setup } }

/-- STOP judged by operating control (R138). -/
def judgeStop (s : State) : Answer :=
  match s.control.op with
  | .setup => .refuse .badState s
  | .tracking =>
    .done (words s.control.op.code (BitVec.ofNat 16 s.queue.items.length)
      (BitVec.ofNat 16 s.list.entries.length) 0 0 0) s.returnToSetup
  | .halted =>
    .done (words s.control.op.code (BitVec.ofNat 16 s.queue.items.length)
      (BitVec.ofNat 16 s.list.entries.length) 0 0 0) s.returnToSetup

/-- STOP (R138). -/
def execStop (s : State) : Host.Outcome State Fault Refusal := complete 0x11 judgeStop s

/-- What REINIT clears beyond the return to SETUP (R148, R163). -/
def State.clearRun (s : State) : State :=
  { s with
    position := { s.position with errors := 0 }
    lanes := mapAll (fun x => { x with counters := .zero }) s.lanes
    queue := { s.queue with nextTag := 1 }
    stations := mapAll (fun st => { st with misses := 0, strays := 0 }) s.stations
    events := { s.events with records := [], index := 0 }
    control := { s.control with firstCause := none, causeMask := 0 }
    host := { s.host with intStatus := 0 } }

/-- REINIT judged by operating control (R148). -/
def judgeReinit (s : State) : Answer :=
  .done (words s.control.op.code 0 0 0 0 0) s.returnToSetup.clearRun

/-- REINIT (R148). -/
def execReinit (s : State) : Host.Outcome State Fault Refusal := complete 0x2F judgeReinit s

/-! ### HALT (R139) -/

/-- HALT judged by operating control (R139). -/
def judgeHalt (s : State) : Answer :=
  match s.control.op with
  | .setup => .refuse .badState s
  | .tracking => .done noWords (s.takeHalt .host)
  | .halted => .refuse .badState s

/-- HALT (R139). -/
def execHalt (s : State) : Host.Outcome State Fault Refusal := complete 0x12 judgeHalt s

/-! ### RESUME (R146) -/

/-- Step 2 of R146: the record of the halt cleared, RESUMED queued. -/
def State.reportResumed (s : State) (taken missed : Nat) : State :=
  State.report { s with control := { s.control with firstCause := none, causeMask := 0 } } .resumed 0 0
    (BitVec.ofNat 16 taken) (BitVec.ofNat 16 missed)

/-- Step 3 of R146: TRACKING, the lines following their holders. -/
def State.enterTracking (s : State) : State :=
  { s with control := { s.control with op := .tracking }
           outputs := mapAll (fun x => { x with held := none }) s.outputs }

/-- Step 4 of R146: re-sampling unless the belt re-travels, and the halt requests it raises. -/
def State.resumeSampling (s : State) : State :=
  if s.reverse = 0 then s.resampleAll.settleHalts else s

/-- Step 5 of R146: the over-reverse check, in TRACKING. -/
def State.resumeOverReverse (s : State) : State :=
  if s.control.op = .tracking ∧ s.overReverse then s.takeHalt .overReverse else s

/-- RESUME with HLD released in HALTED, in the order of R146. -/
def State.resumeRun (s : State) : Answer :=
  let r := s.catchUp
  let s1 := ((r.1.reportResumed r.2.1 r.2.2).enterTracking).resumeSampling.resumeOverReverse
  .done (words (BitVec.ofNat 16 r.2.1) (BitVec.ofNat 16 r.2.2) s1.control.op.code 0 0 0) s1

/-- RESUME judged by operating control (R146). -/
def judgeResume (s : State) : Answer :=
  match s.control.op with
  | .setup => .refuse .badState s
  | .tracking => .refuse .badState s
  | .halted => if s.control.hldAsserted then .refuse .haltActive s else s.resumeRun

/-- RESUME (R146). -/
def execResume (s : State) : Host.Outcome State Fault Refusal := complete 0x13 judgeResume s

end Sys2Proof.Machine
end

