-- ==== Sys2Proof/Machine/ItemCommands.lean ====
section
/-! DEFINITION. Completion of the commands on items, stations and counts: DECIDE, CANCEL, QUERY_ITEM,
STATION_ENABLE, READ_COUNTS, READ_LANE_COUNTERS, and of an unknown code (Chapters 2, 3, 5 and 10). -/

namespace Sys2Proof.Machine

/-- A command taken outside SETUP: BAD_STATE in SETUP (R46, R55, R58). -/
def outsideSetup (judge : State → Answer) (s : State) : Answer :=
  match s.control.op with
  | .setup => .refuse .badState s
  | .tracking => judge s
  | .halted => judge s

/-! ### DECIDE (R46, R47) -/

/-- The words of TOO_LATE and LOCKED: present verdict, source and reason (R47). -/
def Item.verdictWords (i : Item) : Vector Word 6 :=
  words (BitVec.ofNat 16 i.verdict.code) (BitVec.ofNat 16 i.source.code) (i.reason.zeroExtend 16) 0 0 0

/-- The item with the host's verdict (case 4 of R47). -/
def Item.decided (d : DecideWords) (i : Item) : Item :=
  { i with verdict := d.verdict.verdict, reason := d.reason, source := .host, cls := d.cls.getD i.cls }

/-- DECIDE judged against the named item (R47). -/
def decideOn (d : DecideWords) (i : Item) (s : State) : Answer :=
  if i.final then { code := .tooLate, results := i.verdictWords, state := s }
  else if i.source = .forced then { code := .locked, results := i.verdictWords, state := s }
  else
    .done (words (flagBit 0 (i.source == .host)) (BitVec.ofNat 16 i.verdict.code) 0 0 0 0)
      (s.updItem i.tag (Item.decided d))

/-- DECIDE judged by the tracking queue (R46, R47). -/
def judgeDecide : State → Answer := outsideSetup (fun s =>
  match decideOf s.host.copy with
  | none => .refuse .badParam s
  | some d =>
    match s.findInLane d.tag d.lane with
    | none => .refuse .notFound s
    | some i => decideOn d i s)

/-- DECIDE (R46, R47). -/
def execDecideItem (s : State) : Host.Outcome State Fault Refusal := complete 0x20 judgeDecide s

/-! ### CANCEL (R55, R56) -/

/-- The words of a CANCEL (R55, R75). -/
def State.cancelWords (s : State) (i : Item) : Vector Word 6 :=
  words (BitVec.ofNat 16 (s.list.entries.countP (Entry.plannedFor i.tag)))
    (BitVec.ofNat 16 (s.list.entries.countP (Entry.offFor i.tag)))
    (BitVec.ofNat 16 i.verdict.code) (BitVec.ofNat 16 i.source.code) 0 0

/-- CANCEL judged by the tracking queue (R55). -/
def judgeCancel : State → Answer := outsideSetup (fun s =>
  match tagLaneOf s.host.copy with
  | none => .refuse .badParam s
  | some (tag, lane) =>
    match s.findInLane tag lane with
    | none => .refuse .notFound s
    | some i => .done (s.cancelWords i) (s.cancelItem i))

/-- CANCEL (R55, R56). -/
def execCancel (s : State) : Host.Outcome State Fault Refusal := complete 0x21 judgeCancel s

/-! ### QUERY_ITEM (R58) -/

/-- A position, or FFFFFFFFh when absent (R58). -/
def orAllOnes (p : Option Pos) : Pos := p.getD 0xFFFFFFFF

/-- The result words of QUERY_ITEM (R58). -/
def Item.queryWords (i : Item) (part : Fin 2) : Vector Word 6 :=
  match part with
  | 0 => words (lo i.leading) (hi i.leading) (lo (orAllOnes i.trailing)) (hi (orAllOnes i.trailing))
           (lo (orAllOnes i.length)) (hi (orAllOnes i.length))
  | 1 => words (BitVec.ofNat 16 i.verdict.code) (BitVec.ofNat 16 i.source.code) (i.reason.zeroExtend 16)
           (BitVec.ofNat 16 i.cls.val) i.flagsWord i.fired

/-- QUERY_ITEM judged by the tracking queue (R58). -/
def judgeQueryItem : State → Answer := outsideSetup (fun s =>
  match tagLaneOf s.host.copy, wholeBelow 2 s.host.copy[2] with
  | some (tag, lane), some part =>
    match s.findInLane tag lane with
    | none => .refuse .notFound s
    | some i => .done (i.queryWords part) s
  | none, _ => .refuse .badParam s
  | some _, none => .refuse .badParam s)

/-- QUERY_ITEM (R58). -/
def execQueryItem (s : State) : Host.Outcome State Fault Refusal := complete 0x22 judgeQueryItem s

/-! ### STATION_ENABLE (R92 to R94) -/

/-- STATION_ENABLE in SETUP: the enabled field (R92). -/
def State.enableField (s : State) (n : StationId) (on : Bool) : Answer :=
  .done (words (flagBit 0 s.stations[n].config.enabled) 0 0 0 0 0)
    (s.updStation n (fun st => { st with config := { st.config with enabled := on } }))

/-- A station taken out of service (R93): DISABLED, its ON entries removed, its watches discarded. -/
def State.disableStation (s : State) (n : StationId) : State :=
  (s.removeOnEntries n).updStation n (fun st => { st with runtime := .disabled, watches := [] })

/-- STATION_ENABLE off outside SETUP (R93). -/
def State.switchOff (s : State) (n : StationId) : Answer :=
  match s.stations[n].runtime with
  | .enabled =>
    .done (words 1 (BitVec.ofNat 16 (s.list.entries.countP (Entry.isOnOf n))) 0 0 0 0) (s.disableStation n)
  | .failed => .done (words 2 0 0 0 0 0) (s.updStation n (fun st => { st with runtime := .disabled }))
  | .disabled => .done noWords s

/-- STATION_ENABLE on outside SETUP (R94): the checks, then ENABLED with miss count 0. -/
def State.switchOn (s : State) (n : StationId) : Answer :=
  match s.enableFailure n with
  | some f => .configError f s
  | none =>
    .done (words (BitVec.ofNat 16 s.stations[n].runtime.code) 0 0 0 0 0)
      (s.updStation n (fun st => { st with runtime := .enabled, misses := 0 }))

/-- STATION_ENABLE judged by the station (R92 to R94). -/
def judgeStationEnable (s : State) : Answer :=
  match wholeBelow 16 s.host.copy[0], wholeBelow 2 s.host.copy[1] with
  | some n, some on =>
    match s.control.op with
    | .setup => s.enableField n (on == 1)
    | .tracking => if on = 1 then s.switchOn n else s.switchOff n
    | .halted => if on = 1 then s.switchOn n else s.switchOff n
  | none, _ => .refuse .badParam s
  | some _, none => .refuse .badParam s

/-- STATION_ENABLE (R92 to R94). -/
def execStationEnable (s : State) : Host.Outcome State Fault Refusal := complete 0x23 judgeStationEnable s

/-! ### READ_COUNTS (R180) -/

/-- READ_COUNTS judged by the command interface (R180). -/
def judgeReadCounts (s : State) : Answer :=
  .done (words (BitVec.ofNat 16 s.queue.items.length) (BitVec.ofNat 16 s.list.entries.length)
    (BitVec.ofNat 16 s.reservations) (BitVec.ofNat 16 s.events.records.length) s.position.errors
    (BitVec.ofNat 16 (Config.listSlots - s.slotsUsed))) s

/-- READ_COUNTS (R180). -/
def execReadCounts (s : State) : Host.Outcome State Fault Refusal := complete 0x24 judgeReadCounts s

/-! ### READ_LANE_COUNTERS (R33) -/

/-- The result words of a group of counters (R33). -/
def LaneCounters.group (c : LaneCounters) (group : Fin 2) : Vector Word 6 :=
  match group with
  | 0 => words c.leading c.glitches c.pitchIgnored c.admitted c.refused c.retired
  | 1 => words c.cancelled c.forcedRejects c.defaults c.noTrailing 0 0

/-- The counters of a group set to 0 (R33). -/
def LaneCounters.clearGroup (c : LaneCounters) (group : Fin 2) : LaneCounters :=
  match group with
  | 0 => { c with leading := 0, glitches := 0, pitchIgnored := 0, admitted := 0, refused := 0, retired := 0 }
  | 1 => { c with cancelled := 0, forcedRejects := 0, defaults := 0, noTrailing := 0 }

/-- READ_LANE_COUNTERS judged by the lane (R33); a clear flag other than 0 clears (section 10.7). -/
def judgeReadLaneCounters (s : State) : Answer :=
  match wholeBelow 4 s.host.copy[0], wholeBelow 2 s.host.copy[1] with
  | some l, some group =>
    .done (s.lanes[l].counters.group group)
      (if s.host.copy[2] = 0 then s
       else s.updLane l (fun x => { x with counters := x.counters.clearGroup group }))
  | none, _ => .refuse .badParam s
  | some _, none => .refuse .badParam s

/-- READ_LANE_COUNTERS (R33). -/
def execReadLaneCounters (s : State) : Host.Outcome State Fault Refusal := complete 0x25 judgeReadLaneCounters s

/-! ### An unknown code (R177) -/

/-- The codes of the command table (section 10.7). -/
def commandCodes : List (BitVec 8) :=
  [0x01, 0x02, 0x03, 0x04, 0x05, 0x06, 0x07, 0x08, 0x09, 0x10, 0x11, 0x12, 0x13, 0x20, 0x21, 0x22, 0x23, 0x24,
   0x25, 0x2F]

/-- An unknown code in flight is answered with BAD_COMMAND by the command interface (R177). -/
def execUnknownCommand (s : State) : Host.Outcome State Fault Refusal :=
  if commandCodes.contains s.host.lastCode then .next (s.amid id)
  else complete s.host.lastCode (Answer.refuse .badCommand) s

end Sys2Proof.Machine
end

