-- ==== Sys2Proof/Machine/Power.lean ====
section
/-! DEFINITION. Supply and reset: POWER_APPLIED, POWER_ON_RESET_END, RESET_N_ASSERT, RESET_N_RELEASE,
POWER_LOSS (R149, R150). -/

namespace Sys2Proof.Machine

/-- Every block at its values after a reset, with the references at the present pin levels and the given
POWER_ON flag (R15, R34, R63, R86, R107, R121, R135, R149, R164, R181). The pins, the supply, the word last read
and the count of free choices are not blocks of the part and stay. -/
def State.resetBlocks (s : State) (powerOn : Bool) : State :=
  { s with
    position := .reset s.pins.encA s.pins.encB
    lanes := .replicate 4 .reset
    queue := .reset
    list := .reset
    stations := .replicate 16 .reset
    outputs := .replicate 16 .reset
    cfmRef := s.pins.cfm
    events := .reset
    control := .reset (!s.pins.hld)
    host := .reset powerOn
    globals := .reset }

/-- The level at the RESET_N pin set. -/
def State.setResetN (s : State) (level : Level) : State := { s with pins := { s.pins with resetN := level } }

/-- POWER_APPLIED: power-on reset begins (R150). -/
def execPowerApplied (s : State) : Host.Outcome State Fault Refusal :=
  .next (s.amid (fun t =>
    match t.power with
    | .off => { t with power := .starting }
    | .starting => t
    | .on => t))

/-- POWER_ON_RESET_END: every block at its reset values, POWER_ON set, also when RESET_N is low (R150). -/
def execPowerOnResetEnd (s : State) : Host.Outcome State Fault Refusal :=
  .next (s.amid (fun t =>
    match t.power with
    | .off => t
    | .starting => { t.resetBlocks true with power := .on }
    | .on => t))

/-- RESET_N_ASSERT: a command in flight, and all else in progress, is abandoned (R149); POWER_ON is kept. What
the blocks hold while RESET_N is low is not seen (notes/assumptions/6.md). -/
def execResetNAssert (s : State) : Host.Outcome State Fault Refusal :=
  .next (if s.running then (s.setResetN false).resetBlocks s.host.powerOn else s.setResetN false)

/-- RESET_N_RELEASE: every block at its values after hardware reset, the references at the levels of this
moment (R149), unless power-on reset still runs. -/
def execResetNRelease (s : State) : Host.Outcome State Fault Refusal :=
  .next (s.amid (fun t =>
    if t.power = .on ∧ t.pins.resetN = false then (t.setResetN true).resetBlocks t.host.powerOn
    else t.setResetN true))

/-- POWER_LOSS: the part stops and all of its state is lost (R150; notes/assumptions/6.md). -/
def execPowerLoss (s : State) : Host.Outcome State Fault Refusal :=
  .next (match s.power with
    | .off => s
    | .starting => { s.resetBlocks false with power := .off }
    | .on => { s.resetBlocks false with power := .off })

end Sys2Proof.Machine
end

