-- ==== Sys2Proof/Machine/Window.lean ====
section
/-! DEFINITION. Bus cycles on the register window: CMD_WRITE, the reads with an effect, and the register writes
(Chapters 9 and 10). In reset a read returns 0 and a write is ignored (R166). -/

namespace Sys2Proof.Machine

/-- A CMD write is accepted: the parameters are copied, the code recorded, BUSY set, CMD_OVERRUN cleared (R171). -/
def State.acceptCommand (s : State) (value : Word) : State :=
  { s with host := { s.host with busy := true, lastCode := value.extractLsb' 0 8, copy := s.host.params,
                                 overrun := false } }

/-- A write to CMD: accepted while READY, ignored with CMD_OVERRUN while BUSY (R171, R173). -/
def State.writeCmd (s : State) (value : Word) : State :=
  if s.host.busy then { s with host := { s.host with overrun := true } } else s.acceptCommand value

/-- A write to STATUS: bit 5 clears POWER_ON (R168). -/
def State.writeStatus (s : State) (value : Word) : State :=
  if bitAt value 5 then { s with host := { s.host with powerOn := false } } else s

/-- A write to INT_STATUS clears the bits written as 1 (R161). -/
def State.writeIntStatus (s : State) (value : Word) : State :=
  { s with host := { s.host with intStatus := s.host.intStatus &&& ~~~(value.extractLsb' 0 4) } }

/-- A write to INT_ENABLE sets the enables (R162, R167). -/
def State.writeIntEnable (s : State) (value : Word) : State :=
  { s with host := { s.host with intEnable := value.extractLsb' 0 4 } }

/-- The threshold held for a written value, within 1 to 32 (R160, R167). -/
def heldThreshold (value : Word) : BitVec 6 :=
  if value = 0 then 1 else if 32 < value.toNat then 32 else value.extractLsb' 0 6

/-- A write to EVENT_THRESHOLD; EVT is set when it leaves the threshold at or below a non-zero count (R160). -/
def State.writeThreshold (s : State) (value : Word) : State :=
  let s1 := { s with events := { s.events with threshold := heldThreshold value } }
  if s1.events.records.length ≠ 0 ∧ s1.events.threshold.toNat ≤ s1.events.records.length then s1.raiseInt intEvt
  else s1

/-- A write to EVENT_DATA sets the word index to 0 (R158). -/
def State.writeEventData (s : State) : State := { s with events := { s.events with index := 0 } }

/-- PARAM n takes the word (R174). -/
def State.writeParam (s : State) (n : Fin 8) (value : Word) : State :=
  { s with host := { s.host with params := upd s.host.params n (fun _ => value) } }

/-- A write cycle applied to the register the number on A1 to A5 selects (R165, R167). -/
def State.writeRegister (s : State) (register : BitVec 5) (value : Word) : State :=
  match register.toNat with
  | 2 => s.writeStatus value
  | 3 => s.writeIntStatus value
  | 4 => s.writeIntEnable value
  | 5 => s.writeCmd value
  | 8 => s.writeParam 0 value
  | 9 => s.writeParam 1 value
  | 10 => s.writeParam 2 value
  | 11 => s.writeParam 3 value
  | 12 => s.writeParam 4 value
  | 13 => s.writeParam 5 value
  | 14 => s.writeParam 6 value
  | 15 => s.writeParam 7 value
  | 23 => s.writeThreshold value
  | 24 => s.writeEventData
  | _ => s

/-- What a read cycle returns is driven on D0 to D15 (R165). -/
def State.answerRead (s : State) (value : Word) : State := { s with readData := value }

/-- A read cycle: outside reset the word is formed and the effect applied; in reset it returns 0 and has no
effect (R165, R166). Without power there is no read. -/
def State.readCycle (s : State) (register : BitVec 5) (effect : State → State) : State :=
  s.amid (fun t =>
    if t.running then (effect t).answerRead (t.registerRead register) else if t.inReset then t.answerRead 0 else t)

/-- A write cycle: ignored in reset (R166) and without power. -/
def State.writeCycle (s : State) (effect : State → State) : State :=
  s.amid (fun t => if t.running then effect t else t)

/-- The effect of a read of EVENT_DATA: the index advances, and the read of w5 removes the head record (R157). -/
def State.popEventWord (s : State) : State :=
  match s.events.records with
  | [] => s
  | _ :: rest =>
    if s.events.index = 5 then { s with events := { s.events with records := rest, index := 0 } }
    else { s with events := { s.events with index := s.events.index + 1 } }

/-- CMD_WRITE (R171, R173). -/
def execCmdWrite (value : Word) (s : State) : Host.Outcome State Fault Refusal :=
  .next (s.writeCycle (fun t => t.writeCmd value))

/-- POS_LOW_READ (R13). -/
def execPosLowRead (s : State) : Host.Outcome State Fault Refusal :=
  .next (s.readCycle 28 (fun t => { t with position := { t.position with posHigh := hi t.position.counter } }))

/-- TRACK_LOW_READ (R13). -/
def execTrackLowRead (s : State) : Host.Outcome State Fault Refusal :=
  .next (s.readCycle 30 (fun t => { t with position := { t.position with trackHigh := hi t.position.tracking } }))

/-- EVENT_DATA_READ (R157). -/
def execEventDataRead (s : State) : Host.Outcome State Fault Refusal :=
  .next (s.readCycle 24 State.popEventWord)

/-- EVENT_DATA_WRITE, of any value (R158). -/
def execEventDataWrite (_value : Word) (s : State) : Host.Outcome State Fault Refusal :=
  .next (s.writeCycle State.writeEventData)

/-- INT_STATUS_WRITE (R161). -/
def execIntStatusWrite (value : Word) (s : State) : Host.Outcome State Fault Refusal :=
  .next (s.writeCycle (fun t => t.writeIntStatus value))

/-- INT_ENABLE_WRITE (R162). -/
def execIntEnableWrite (value : Word) (s : State) : Host.Outcome State Fault Refusal :=
  .next (s.writeCycle (fun t => t.writeIntEnable value))

/-- EVENT_THRESHOLD_WRITE (R160). -/
def execEventThresholdWrite (value : Word) (s : State) : Host.Outcome State Fault Refusal :=
  .next (s.writeCycle (fun t => t.writeThreshold value))

/-- STATUS_WRITE (R168). -/
def execStatusWrite (value : Word) (s : State) : Host.Outcome State Fault Refusal :=
  .next (s.writeCycle (fun t => t.writeStatus value))

/-- REGISTER_WRITE (R167, R174): PARAM0 to PARAM7 store the word, the read-only and unused registers ignore it.
A number whose register has a write row of its own (an ill-formed term) takes that register's write. -/
def execRegisterWrite (register : BitVec 5) (value : Word) (s : State) : Host.Outcome State Fault Refusal :=
  .next (s.writeCycle (fun t => t.writeRegister register value))

end Sys2Proof.Machine
end

