-- ==== Sys2Proof/Machine/Dispatch.lean ====
section
/-! DEFINITION. One arm per command of the table. -/

namespace Sys2Proof.Machine

def exec (i : Instr) (s : State) : Host.Outcome State Fault Refusal :=
  match i with
  | .powerApplied => Sys2Proof.Machine.execPowerApplied s
  | .powerOnResetEnd => Sys2Proof.Machine.execPowerOnResetEnd s
  | .resetNAssert => Sys2Proof.Machine.execResetNAssert s
  | .resetNRelease => Sys2Proof.Machine.execResetNRelease s
  | .encoderTransition a b => Sys2Proof.Machine.execEncoderTransition a b s
  | .timePulseEnd station => Sys2Proof.Machine.execTimePulseEnd station s
  | .watchExpiry station => Sys2Proof.Machine.execWatchExpiry station s
  | .confirmEdge input rising => Sys2Proof.Machine.execConfirmEdge input rising s
  | .detInputChange lane level => Sys2Proof.Machine.execDetInputChange lane level s
  | .hldAssert => Sys2Proof.Machine.execHldAssert s
  | .hldRelease => Sys2Proof.Machine.execHldRelease s
  | .cmdWrite value => Sys2Proof.Machine.execCmdWrite value s
  | .setGlobal => Sys2Proof.Machine.execSetGlobal s
  | .getGlobal => Sys2Proof.Machine.execGetGlobal s
  | .setLane => Sys2Proof.Machine.execSetLane s
  | .getLane => Sys2Proof.Machine.execGetLane s
  | .setStation => Sys2Proof.Machine.execSetStation s
  | .getStation => Sys2Proof.Machine.execGetStation s
  | .setOutput => Sys2Proof.Machine.execSetOutput s
  | .forceOutput => Sys2Proof.Machine.execForceOutput s
  | .presetPosition => Sys2Proof.Machine.execPresetPosition s
  | .start => Sys2Proof.Machine.execStart s
  | .stop => Sys2Proof.Machine.execStop s
  | .halt => Sys2Proof.Machine.execHalt s
  | .resume => Sys2Proof.Machine.execResume s
  | .decideItem => Sys2Proof.Machine.execDecideItem s
  | .cancel => Sys2Proof.Machine.execCancel s
  | .queryItem => Sys2Proof.Machine.execQueryItem s
  | .stationEnable => Sys2Proof.Machine.execStationEnable s
  | .readCounts => Sys2Proof.Machine.execReadCounts s
  | .readLaneCounters => Sys2Proof.Machine.execReadLaneCounters s
  | .reinit => Sys2Proof.Machine.execReinit s
  | .unknownCommand => Sys2Proof.Machine.execUnknownCommand s
  | .posLowRead => Sys2Proof.Machine.execPosLowRead s
  | .trackLowRead => Sys2Proof.Machine.execTrackLowRead s
  | .eventDataRead => Sys2Proof.Machine.execEventDataRead s
  | .eventDataWrite value => Sys2Proof.Machine.execEventDataWrite value s
  | .intStatusWrite value => Sys2Proof.Machine.execIntStatusWrite value s
  | .intEnableWrite value => Sys2Proof.Machine.execIntEnableWrite value s
  | .eventThresholdWrite value => Sys2Proof.Machine.execEventThresholdWrite value s
  | .statusWrite value => Sys2Proof.Machine.execStatusWrite value s
  | .registerWrite register value => Sys2Proof.Machine.execRegisterWrite register value s
  | .powerLoss => Sys2Proof.Machine.execPowerLoss s

end Sys2Proof.Machine
end

