-- ==== Sys2Proof/Safety.lean ====
section
/-! DEFINITION. What holds of the part between steps, in the terms the statements use: the capacities, what
SETUP, TRACKING and HALTED mean for each block, and that no step stops. Each is an invariant of the manual's, with
the rule that states it. -/

namespace Sys2Proof.Machine

/-- A step answers a next state: the part never stops (notes/assumptions/4.md). -/
def State.Proceeds (s : State) : Prop := ∃ t, step s = .next t

/-- The capacities (R35, R66, R124): 64 item records, 192 slots with the reservations, 4 watches a station. -/
structure State.WithinCapacity (s : State) : Prop where
  items : s.queue.items.length ≤ 64
  slots : s.list.entries.length + s.list.entries.countP Entry.isOn ≤ 192
  watches : ∀ n : StationId, s.stations[n].watches.length ≤ 4

/-- The event queue (R155, R157, R160): at most 32 records, the last slot filled by an EVENTS_LOST record only, the
word index at 0 while it is empty, the threshold 1 to 32. -/
structure State.EventsSound (s : State) : Prop where
  room : s.events.records.length ≤ 32
  last : s.events.records.length = 32 →
    ∃ older lost, s.events.records = older ++ [lost] ∧ lost.kind = .eventsLost
  index : s.events.records = [] → s.events.index = 0
  threshold : 1 ≤ s.events.threshold.toNat ∧ s.events.threshold.toNat ≤ 32

/-- SETUP (R7, R18, R62, R85, R90, R110, R120): nothing is tracked, planned, watched or held. -/
structure State.SetupIsEmpty (s : State) : Prop where
  tracking : s.control.op = .setup → s.position.tracking = s.position.counter
  firing : s.control.op = .setup → s.list.firingPoint = s.position.counter
  detectors : s.control.op = .setup → ∀ l : LaneId, s.lanes[l].detector = .off
  queue : s.control.op = .setup → s.queue.items = []
  list : s.control.op = .setup → s.list.entries = []
  stations : s.control.op = .setup →
    ∀ n : StationId, s.stations[n].runtime = .disabled ∧ s.stations[n].pulse = none ∧ s.stations[n].watches = []

/-- A station that is not ENABLED has no ON entries and no watches, and in HALTED no station has a watch
(section 5.3, R124, R133). -/
structure State.StationsServed (s : State) : Prop where
  setup : s.SetupIsEmpty
  outOfService : ∀ n : StationId, s.stations[n].runtime ≠ .enabled →
    s.stations[n].watches = [] ∧ ∀ e ∈ s.list.entries, e.kind ≠ .on n
  halted : s.control.op = .halted → ∀ n : StationId, s.stations[n].watches = []

/-- The record of the halt (R140, R142, R169): none in TRACKING, a first cause in HALTED, its bit in the mask; and no
request on its way in SETUP, in a part that does not run, or when no command waits (notes/assumptions/10.md). -/
structure State.HaltRecorded (s : State) : Prop where
  tracking : s.control.op = .tracking → s.control.firstCause = none ∧ s.control.causeMask = 0
  halted : s.control.op = .halted → s.control.firstCause ≠ none
  mask : ∀ c, s.control.firstCause = some c → s.control.causeMask &&& c.bit = c.bit
  setup : s.control.op = .setup → s.control.requests = []
  stopped : s.running = false → s.control.requests = []
  settled : s.pending = [] → s.control.requests = []

/-- The part never stays in TRACKING with HLD asserted, and the sample is the pin's level (R144, R145). -/
structure State.HoldRespected (s : State) : Prop where
  tracking : s.control.op = .tracking → s.control.hldAsserted = false
  sample : s.running = true → s.control.hldAsserted = !s.pins.hld

/-- Held levels exist in HALTED for lines with fault action HOLD only, forced states in SETUP only (section 6.1,
R119). -/
structure State.OutputsSound (s : State) : Prop where
  held : ∀ o : OutputId,
    s.outputs[o].held ≠ none ↔ s.control.op = .halted ∧ s.outputs[o].fault = .hold
  forced : s.control.op ≠ .setup → ∀ o : OutputId, s.outputs[o].forced = .none

/-- A detector that is not OFF belongs to an enabled lane, outside SETUP (R18). -/
def State.DetectorsSound (s : State) : Prop :=
  ∀ l : LaneId, s.lanes[l].detector ≠ .off → s.lanes[l].config.enabled = true ∧ s.control.op ≠ .setup

/-- The live items' tags are distinct and never 0, and so is the next tag (R35, R37). -/
structure State.TagsSound (s : State) : Prop where
  room : s.queue.items.length ≤ 64
  distinct : (s.queue.items.map Item.tag).Nodup
  live : ∀ i ∈ s.queue.items, i.tag ≠ 0
  next : s.queue.nextTag ≠ 0

/-- A RETIRE entry. -/
def Entry.isRetire (e : Entry) : Bool := e.kind == .retire

/-- Every live item has exactly one RETIRE entry in the list, and every RETIRE entry names a live item (R67). -/
structure State.ListMatchesQueue (s : State) : Prop where
  tags : s.TagsSound
  retire : ((s.list.entries.filter Entry.isRetire).map Entry.tag).Perm (s.queue.items.map Item.tag)

/-- The ranges of a lane's configuration (R16). -/
structure LaneConfig.Sound (c : LaneConfig) : Prop where
  decision : c.decision ≠ 0
  filter : c.filter.toNat < c.exit.toNat
  lengths : c.minLength ≠ 0 → c.maxLength ≠ 0 → c.minLength.toNat < c.maxLength.toNat

/-- The ranges of a station's configuration (R87). -/
structure StationConfig.Sound (c : StationConfig) : Prop where
  offset : c.offset ≠ 0
  window : c.window ≠ 0
  length : c.mode ≠ .item → c.pulseWord ≠ 0 ∧ c.capWord = 0
  cap : c.mode = .item → c.capWord ≠ 0

/-- Every configuration is in range (R16, R87, R178). -/
structure State.ConfigSound (s : State) : Prop where
  lanes : ∀ l : LaneId, s.lanes[l].config.Sound
  stations : ∀ n : StationId, s.stations[n].config.Sound
  tickDiv : s.globals.tickDiv ≠ 0

/-- While the part runs, the decoder reference and the sample references are the levels at the pins (R1, R3, R122). -/
structure State.ReferencesCurrent (s : State) : Prop where
  encA : s.running = true → s.position.refA = s.pins.encA
  encB : s.running = true → s.position.refB = s.pins.encB
  cfm : s.running = true → s.cfmRef = s.pins.cfm

/-- The action list and the belt (R68, R71, R81): in TRACKING every entry lies ahead of the tracking position and none
is reached; in HALTED every entry that is not reached does. With it what this rests on: a part that leaves SETUP only
while it runs (R149), an empty list and detectors OFF in SETUP, a filter distance where a capture stands, in an
unblanked lane an active input and a capture closer than that distance (R20, R21), and ENABLED stations, with the
decision point they give, beyond it (R105). -/
structure State.ListAheadOfTheBelt (s : State) : Prop where
  config : s.ConfigSound
  running : s.running = false → s.control.op = .setup
  setup : s.control.op = .setup → s.list.entries = []
  detectors : s.control.op = .setup → ∀ l : LaneId, s.lanes[l].detector = .off
  tracking : s.control.op = .tracking →
    ∀ e ∈ s.list.entries, ahead e.fire s.position.tracking = true ∧ e.reached = false
  halted : s.control.op = .halted →
    ∀ e ∈ s.list.entries, e.reached = false → ahead e.fire s.position.tracking = true
  filters : s.control.op ≠ .setup → ∀ (l : LaneId) (capture : Pos),
    s.lanes[l].detector = .filtering capture → s.lanes[l].config.filter ≠ 0
  captures : s.control.op = .tracking → s.reverse = 0 → ∀ (l : LaneId) (capture : Pos),
    s.lanes[l].detector = .filtering capture →
      s.inputActive l = true ∧ (s.position.tracking - capture).toNat < s.lanes[l].config.filter.toNat
  stations : s.control.op ≠ .setup → ∀ n : StationId, s.stations[n].runtime = .enabled →
    let c := s.stations[n].config
    let x := s.lanes[c.lane].config
    x.filter.toNat < c.offset.toNat ∧ (c.verdictDependent = true → x.filter.toNat < x.decision.toNat)

/-- Entry `x` stands before `y` in list order, or at the same place (R65). -/
def Entry.NotAfter (firingPoint : Pos) (x y : Entry) : Prop :=
  (x.fire - firingPoint).toNat < (y.fire - firingPoint).toNat ∨ (x.fire = y.fire ∧ x.kind.rank ≤ y.kind.rank)

/-- The action list stands in list order (R65). With it what this rests on (R68, R71, R81): the firing point is the
tracking position in TRACKING, every entry lies within 2^31 counts of it, and in HALTED the belt has not come from the
firing point to an entry that is not reached. -/
structure State.ListInOrder (s : State) : Prop where
  belt : s.ListAheadOfTheBelt
  order : s.list.entries.Pairwise (Entry.NotAfter s.list.firingPoint)
  near : ∀ e ∈ s.list.entries, (e.fire - s.list.firingPoint).toNat < 2 ^ 31
  tracking : s.control.op = .tracking → s.list.firingPoint = s.position.tracking
  halted : s.control.op = .halted → ∀ e ∈ s.list.entries, e.reached = false →
    (s.position.tracking - s.list.firingPoint).toNat < (e.fire - s.list.firingPoint).toNat

/-- Every RETIRE, DEADLINE and ON entry names a live item (R67). With it what this rests on: one RETIRE entry for each
live item, the list in order, reached entries before the others, no DEADLINE or ON entry of an item behind its RETIRE,
and ENABLED stations, with the decision point they give, before the exit of their lane (R105). -/
structure State.EntriesNameLiveItems (s : State) : Prop where
  queue : s.ListMatchesQueue
  list : s.ListInOrder
  live : ∀ e ∈ s.list.entries, e.isOff = false → ∃ i ∈ s.queue.items, i.tag = e.tag
  reached : s.list.entries.Pairwise (fun x y => x.reached = false → y.reached = false)
  last : s.list.entries.Pairwise (fun x y => x.kind = .retire → y.tag = x.tag → y.isOff = true)
  stations : s.control.op ≠ .setup → ∀ n : StationId, s.stations[n].runtime = .enabled →
    let c := s.stations[n].config
    let x := s.lanes[c.lane].config
    c.offset.toNat < x.exit.toNat ∧ (c.verdictDependent = true → x.decision.toNat < x.exit.toNat)

/-- A step keeps `P`: from every state with `P`, whether or not a run reaches it. -/
def KeptByStep (P : State → Prop) : Prop := ∀ s t, P s → step s = .next t → P t

/-- The supply and reset commands: the only ones a part in reset takes, and the only ones that bring a block to its
reset values (R149, R150). -/
def isResetCommand : Instr → Bool
  | .powerApplied => true
  | .powerOnResetEnd => true
  | .resetNAssert => true
  | .resetNRelease => true
  | .powerLoss => true
  | .encoderTransition _ _ => false
  | .timePulseEnd _ => false
  | .watchExpiry _ => false
  | .confirmEdge _ _ => false
  | .detInputChange _ _ => false
  | .hldAssert => false
  | .hldRelease => false
  | .cmdWrite _ => false
  | .setGlobal => false
  | .getGlobal => false
  | .setLane => false
  | .getLane => false
  | .setStation => false
  | .getStation => false
  | .setOutput => false
  | .forceOutput => false
  | .presetPosition => false
  | .start => false
  | .stop => false
  | .halt => false
  | .resume => false
  | .decideItem => false
  | .cancel => false
  | .queryItem => false
  | .stationEnable => false
  | .readCounts => false
  | .readLaneCounters => false
  | .reinit => false
  | .unknownCommand => false
  | .posLowRead => false
  | .trackLowRead => false
  | .eventDataRead => false
  | .eventDataWrite _ => false
  | .intStatusWrite _ => false
  | .intEnableWrite _ => false
  | .eventThresholdWrite _ => false
  | .statusWrite _ => false
  | .registerWrite _ _ => false

/-- A command completed with this code and these words, and nothing else changed (steps 2 to 4 of R172). -/
def State.completed (s : State) (code : ResultCode) (results : Vector Word 6) : State :=
  { s with host := { s.host with busy := false, resultCode := code, results := results,
                                 intStatus := s.host.intStatus ||| 1#4 } }

/-- A record as a block forms it at this moment (R152), with the low field 0. -/
def State.recordNow (s : State) (kind : EventKind) (unit : BitVec 4) (tag : Tag) (auxA auxB : Word) : EventRecord :=
  { kind := kind, unit := unit, low := 0#4, tag := tag, position := s.position.tracking, auxA := auxA, auxB := auxB }

/-- The state with the two encoder pins, and the decoder reference, at a pair of levels. -/
def State.atPair (s : State) (a b : Level) : State :=
  { s with pins := { s.pins with encA := a, encB := b }, position := { s.position with refA := a, refB := b } }

/-- The part runs, and no halt request is on its way. -/
def State.Quiet (s : State) : Prop := s.running = true ∧ s.control.requests = []

/-- The part runs with no halt request on its way, and a command of this code is in flight (R171). -/
def State.Awaits (s : State) (code : BitVec 8) : Prop :=
  s.Quiet ∧ s.host.busy = true ∧ s.host.lastCode = code

/-- In state `s` a step has raised a halt request of this cause and has this outcome: with no command waiting operating
control has taken the request; with one waiting it has, or the request is still on its way (R143). -/
def State.Requested (s : State) (c : Cause) (outcome : Host.Outcome State Fault Refusal) : Prop :=
  (s.pending = [] → outcome = .next (s.takeHalt c))
  ∧ (s.pending ≠ [] → ∃ n, outcome = .next { s.takeHalt c with choices := n }
      ∨ outcome = .next { s.requestHalt c with choices := n })

/-- What a pin event or a read leaves in a part that does not run: the pin at its level, and 0 read in reset (R149, R150,
R166). -/
def State.unheard (s : State) : Instr → State
  | .encoderTransition a b => { s with pins := { s.pins with encA := a, encB := b } }
  | .confirmEdge input rising => { s with pins := { s.pins with cfm := upd s.pins.cfm input (fun _ => rising) } }
  | .detInputChange l level => { s with pins := { s.pins with det := upd s.pins.det l (fun _ => level) } }
  | .hldAssert => { s with pins := { s.pins with hld := false } }
  | .hldRelease => { s with pins := { s.pins with hld := true } }
  | .posLowRead => if s.inReset then { s with readData := 0 } else s
  | .trackLowRead => if s.inReset then { s with readData := 0 } else s
  | .eventDataRead => if s.inReset then { s with readData := 0 } else s
  | .powerApplied => s
  | .powerOnResetEnd => s
  | .resetNAssert => s
  | .resetNRelease => s
  | .timePulseEnd _ => s
  | .watchExpiry _ => s
  | .cmdWrite _ => s
  | .setGlobal => s
  | .getGlobal => s
  | .setLane => s
  | .getLane => s
  | .setStation => s
  | .getStation => s
  | .setOutput => s
  | .forceOutput => s
  | .presetPosition => s
  | .start => s
  | .stop => s
  | .halt => s
  | .resume => s
  | .decideItem => s
  | .cancel => s
  | .queryItem => s
  | .stationEnable => s
  | .readCounts => s
  | .readLaneCounters => s
  | .reinit => s
  | .unknownCommand => s
  | .eventDataWrite _ => s
  | .intStatusWrite _ => s
  | .intEnableWrite _ => s
  | .eventThresholdWrite _ => s
  | .statusWrite _ => s
  | .registerWrite _ _ => s
  | .powerLoss => s

/-! ### Resets -/

/-- Every block at the values the manual gives after power-on and hardware reset (sections 1.7, 2.8, 3.12, 4.8, 5.7,
6.6, 7.8, R142, R164, 10.8 and 10.10), the references at the present pin levels; POWER_ON is not among them. -/
structure State.AtDefaults (s : State) : Prop where
  position : s.position =
    { counter := 0, tracking := 0, mode := .quad, invert := false, tolerance := 16, errors := 0,
      refA := s.pins.encA, refB := s.pins.encB, posHigh := 0, trackHigh := 0 }
  laneConfig : ∀ l : LaneId, s.lanes[l].config =
    { enabled := false, activeLow := false, filter := 4, minPitch := 0, minLength := 0, maxLength := 0,
      decision := 200, exit := 1000, defaultVerdict := .reject, defaultClass := 0, sizePolicy := .flag,
      overflow := .drop }
  detectors : ∀ l : LaneId, s.lanes[l].detector = .off ∧ s.lanes[l].previous = none
  counters : ∀ l : LaneId, s.lanes[l].counters =
    { leading := 0, glitches := 0, pitchIgnored := 0, admitted := 0, refused := 0, retired := 0, cancelled := 0,
      forcedRejects := 0, defaults := 0, noTrailing := 0 }
  queue : s.queue = { items := [], nextTag := 1 }
  list : s.list = { entries := [], firingPoint := 0 }
  stationConfig : ∀ n : StationId, s.stations[n].config =
    { enabled := false, lane := 0, offset := 500, selector := .any, classMask := 0xFFFF, mode := .count,
      pulseWord := 50, capWord := 0, output := 0, confirm := none, falling := false, window := 10000,
      missLimit := 3 }
  stations : ∀ n : StationId, s.stations[n].runtime = .disabled ∧ s.stations[n].pulse = none
    ∧ s.stations[n].misses = 0 ∧ s.stations[n].strays = 0 ∧ s.stations[n].watches = []
  outputs : ∀ o : OutputId, s.outputs[o] = { activeLow := false, fault := .off, forced := .none, held := none }
  references : s.cfmRef = s.pins.cfm
  events : s.events = { records := [], index := 0, mask := 0, threshold := 1 }
  control : s.control =
    { op := .setup, firstCause := none, causeMask := 0, hldAsserted := !s.pins.hld, requests := [] }
  ready : s.host.busy = false ∧ s.host.overrun = false ∧ s.host.lastCode = 0
  results : s.host.resultCode = .done ∧ (∀ k : Fin 6, s.host.results[k] = 0) ∧ ∀ k : Fin 8, s.host.params[k] = 0
  interrupts : s.host.intStatus = 0 ∧ s.host.intEnable = 0
  globals : s.globals.tickDiv = 16 ∧ s.globals.haltOnFail = false

/-! ### The belt -/

/-- The forward sequence of R1, as levels of ENC_A and ENC_B. -/
def quadSequence : Fin 4 → Level × Level
  | 0 => (false, false)
  | 1 => (true, false)
  | 2 => (true, true)
  | 3 => (false, true)

/-- The counter after a step of the given direction, the invert applied (R3, R5). -/
def State.counted (s : State) (forward : Bool) : Pos :=
  if forward != s.position.invert then s.position.counter + 1 else s.position.counter - 1

/-- A step in SETUP: pins and reference at the pair, the counter, the tracking position and the firing point at `c`
(R5, R7, R85). -/
def State.setupStep (s : State) (a b : Level) (c : Pos) : State :=
  { s with pins := { s.pins with encA := a, encB := b }
           position := { s.position with refA := a, refB := b, counter := c, tracking := c }
           list := { s.list with firingPoint := c } }

/-- The pair (a, b) is one step from the decoder reference, forward or backward: in QUAD mode a neighbouring pair of the
sequence, in PULSE_DIR mode a rise of ENC_A, with ENC_B low for forward; the invert exchanges the two directions (R1 to
R3). That the new level of ENC_B counts is the model's reading (notes/assumptions/9.md). -/
def State.IsStep (s : State) (forward : Bool) (a b : Level) : Prop :=
  let onward := forward != s.position.invert
  (s.position.mode = .quad ∧ ∃ k : Fin 4, (s.position.refA, s.position.refB) = quadSequence k
      ∧ (a, b) = quadSequence (if onward then k + 1 else k - 1))
  ∨ (s.position.mode = .pulseDir ∧ s.position.refA = false ∧ a = true ∧ b = !onward)

/-- The pair (a, b) is no step and no error: in QUAD mode the decoder reference itself, in PULSE_DIR mode anything but a
rise of ENC_A (R1, R2). -/
def State.IsNoStep (s : State) (a b : Level) : Prop :=
  (s.position.mode = .quad ∧ a = s.position.refA ∧ b = s.position.refB)
  ∨ (s.position.mode = .pulseDir ∧ (s.position.refA = true ∨ a = false))

/-- The positions after a forward step to a pair that advances the tracking position (R5, R8). -/
def State.advanced (s : State) (a b : Level) : State :=
  let p := s.atPair a b
  { p with position := { p.position with counter := s.position.counter + 1, tracking := s.position.tracking + 1 } }

/-- The positions after a forward step to a pair in re-travel (R5, R10). -/
def State.regained (s : State) (a b : Level) : State :=
  let p := s.atPair a b
  { p with position := { p.position with counter := s.position.counter + 1 } }

/-- The positions after a backward step to a pair outside SETUP (R5, R10). -/
def State.withdrawn (s : State) (a b : Level) : State :=
  let p := s.atPair a b
  { p with position := { p.position with counter := s.position.counter - 1 } }

/-- The part runs in an operating state with no halt request on its way, and the pair (a, b) is an advance: a forward step
from reverse amount 0 (R8). -/
structure State.Advances (s : State) (op : OpState) (a b : Level) : Prop where
  quiet : s.Quiet
  state : s.control.op = op
  forward : s.IsStep true a b
  reverse : s.reverse = 0

/-- An advance in TRACKING that is work for lane `l` at most: no other lane and no entry has anything to take. -/
structure State.OnlyLane (s : State) (l : LaneId) (a b : Level) : Prop where
  advance : s.Advances .tracking a b
  others : ∀ m : LaneId, m ≠ l → (s.advanced a b).laneDue m = false
  entries : ∀ e ∈ s.list.entries, e.fire ≠ s.position.tracking + 1

/-- Position `p` is at or behind `here` (conventions of 00_scope.md). -/
def AtOrBehind (p here : Pos) : Prop := p = here ∨ 2 ^ 31 ≤ (p - here).toNat

/-- The edge at `pos` is closer to the lane's previous leading position than its min pitch (R22). -/
def Lane.PitchShort (x : Lane) (pos : Pos) : Prop :=
  x.config.minPitch ≠ 0 ∧ ∃ q, x.previous = some q ∧ (pos - q).toNat < x.config.minPitch.toNat

/-- The tag after a tag in the sequence 1, 2, … 65535, 1 (R37). -/
def tagAfter (t : Tag) : Tag := if t = 0xFFFF then 1 else t + 1

/-- The tag and position conditions of a LONG finding hold of an item (R28). -/
def State.LongHolds (s : State) (l : LaneId) (i : Item) : Prop :=
  s.lanes[l].config.maxLength ≠ 0 ∧ i.long = false
    ∧ AtOrBehind (i.leading + s.lanes[l].config.maxLength.zeroExtend 32) s.position.tracking

/-- A LONG finding of lane `l` on live item `i`: the flag, ITEM_JAM and, with size policy REJECT, the forced verdict F1h
of an item that is not final, with its counter (R28, R29). -/
def State.longFound (s : State) (l : LaneId) (i : Item) : State :=
  let forced : Bool := s.lanes[l].config.sizePolicy == .reject && !i.final
  let record : Item :=
    if forced then { i with long := true, verdict := .reject, source := .forced, reason := 0xF1 }
    else { i with long := true }
  State.arrive
    { s with
      queue := { s.queue with items := s.queue.items.map (fun x => if x.tag = i.tag then record else x) }
      lanes := upd s.lanes l (fun x =>
        { x with counters :=
          { x.counters with forcedRejects := x.counters.forcedRejects + (if forced then 1 else 0) } }) }
    (s.recordNow .itemJam (BitVec.ofNat 4 l.val) i.tag 0 0)

/-- Lane `l` would do nothing at a re-sampling: OFF, WAIT_CLEAR with its input active, or CLEAR with it inactive
(R31). -/
def State.LaneSettled (s : State) (l : LaneId) : Prop :=
  s.lanes[l].detector = .off ∨ (s.lanes[l].detector = .waitClear ∧ s.inputActive l = true)
    ∨ (s.lanes[l].detector = .clear ∧ s.inputActive l = false)

/-- The catch-up of a RESUME: the reached entries leave the list and are taken one after another, in list order, and the
firing point is the tracking position (R82). -/
def State.caughtUp (s : State) : State :=
  let kept := { s with list := { s.list with entries := s.list.entries.filter (fun e => !e.reached) } }
  let t := (s.list.entries.filter (fun e => e.reached)).foldl State.catchEntry kept
  { t with list := { t.list with firingPoint := s.position.tracking } }

/-! ### Parameters -/

/-- The words of a SET_GLOBAL are in range (R178). -/
def GlobalInRange (p : Vector Word 8) : Prop :=
  p[0] ≠ 0 ∧ p[0].toNat ≤ 255 ∧ (p[1].extractLsb' 0 2).toNat ≤ 1 ∧ p[3].extractLsb' 9 7 = 0

/-- The values of a SET_LANE are in range (R16, section 10.7). -/
def LaneInRange (p : Vector Word 8) : Prop :=
  (p[1].extractLsb' 12 4).toNat ≤ 3
    ∧ ((p[1].extractLsb' 2 2).toNat = 1 ∨ (p[1].extractLsb' 2 2).toNat = 2)
    ∧ (p[7].extractLsb' 0 8 ++ p[5] : Distance) ≠ 0 ∧ (p[7].extractLsb' 8 8 ++ p[6] : Distance) ≠ 0
    ∧ (p[3] ≠ 0 → (p[0].extractLsb' 0 8 ++ p[4] : Distance) ≠ 0
        → p[3].toNat < (p[0].extractLsb' 0 8 ++ p[4] : Distance).toNat)
    ∧ (p[0].extractLsb' 8 8).toNat < (p[7].extractLsb' 8 8 ++ p[6] : Distance).toNat

/-- Lane configuration `c` is what the words of a SET_LANE say, field by field (section 10.7). -/
structure LaneConfig.Says (c : LaneConfig) (p : Vector Word 8) : Prop where
  enabled : c.enabled = p[1].getLsbD 0
  activeLow : c.activeLow = p[1].getLsbD 1
  filter : c.filter = p[0].extractLsb' 8 8
  minPitch : c.minPitch = p[2]
  minLength : c.minLength = p[3]
  maxLength : c.maxLength = p[0].extractLsb' 0 8 ++ p[4]
  decision : c.decision = p[7].extractLsb' 0 8 ++ p[5]
  exit : c.exit = p[7].extractLsb' 8 8 ++ p[6]
  defaultVerdict : c.defaultVerdict = .pass ↔ (p[1].extractLsb' 2 2).toNat = 1
  defaultClass : c.defaultClass.val = (p[1].extractLsb' 8 4).toNat
  sizePolicy : c.sizePolicy = .reject ↔ p[1].getLsbD 4 = true
  overflow : c.overflow = .halt ↔ p[1].getLsbD 5 = true

/-- The values of a SET_STATION are in range (R87, section 10.7). -/
def StationInRange (p : Vector Word 8) : Prop :=
  p[0].toNat ≤ 15 ∧ (p[2].extractLsb' 8 8).toNat ≤ 15 ∧ (p[2].extractLsb' 0 8 ++ p[1] : Distance) ≠ 0
    ∧ (p[3].extractLsb' 1 2).toNat ≤ 2 ∧ (p[3].extractLsb' 3 2).toNat ≤ 2 ∧ (p[3].extractLsb' 5 3).toNat ≤ 4
    ∧ p[7] ≠ 0
    ∧ ((p[3].extractLsb' 3 2).toNat < 2 → p[5] ≠ 0 ∧ p[6] = 0)
    ∧ ((p[3].extractLsb' 3 2).toNat = 2 → p[6] ≠ 0)

/-- Station configuration `c` is what the words of a SET_STATION say, field by field (section 10.7). -/
structure StationConfig.Says (c : StationConfig) (p : Vector Word 8) : Prop where
  enabled : c.enabled = p[3].getLsbD 0
  lane : c.lane.val = (p[3].extractLsb' 10 2).toNat
  offset : c.offset = p[2].extractLsb' 0 8 ++ p[1]
  selector : c.selector.code = (p[3].extractLsb' 1 2).toNat
  classMask : c.classMask = p[4]
  mode : c.mode.code = (p[3].extractLsb' 3 2).toNat
  pulseWord : c.pulseWord = p[5]
  capWord : c.capWord = p[6]
  output : c.output.val = (p[2].extractLsb' 8 8).toNat
  confirm : confirmCode c.confirm = (p[3].extractLsb' 5 3).toNat
  falling : c.falling = p[3].getLsbD 8
  window : c.window = p[7]
  missLimit : c.missLimit = p[3].extractLsb' 12 4

/-- The words of a DECIDE are in range (R46). -/
def DecideInRange (p : Vector Word 8) : Prop :=
  p[0] ≠ 0 ∧ p[1].toNat ≤ 3 ∧ (p[2].toNat = 1 ∨ p[2].toNat = 2) ∧ p[3].toNat ≤ 0xEF
    ∧ (p[4].toNat ≤ 15 ∨ p[4] = 0xFF)

/-- Item `i` is the live item that holds the tag, and belongs to the lane of that number (R47, R55, R58). -/
def State.Names (s : State) (i : Item) (tag lane : Word) : Prop :=
  s.queue.items.find? (fun x => x.tag == tag) = some i ∧ i.lane.val = lane.toNat

/-- No live item holds the tag in the lane of that number. -/
def State.NamesNone (s : State) (tag lane : Word) : Prop := ∀ i, ¬ s.Names i tag lane

/-! ### The configuration checks (section 5.6) -/

/-- The filter, decision and exit distances of the lane do not rise (the failure of check 5). -/
def LaneConfig.Disordered (c : LaneConfig) : Prop :=
  ¬ (c.filter.toNat < c.decision.toNat ∧ c.decision.toNat < c.exit.toNat)

/-- Check 2, 3 or 4 of section 5.6 fails for station `n`. -/
def State.stationFails (s : State) (check : Nat) (n : StationId) : Prop :=
  let c := s.stations[n].config
  let x := s.lanes[c.lane].config
  (check = 2 ∧ x.enabled = false)
    ∨ (check = 3 ∧ ¬ (x.filter.toNat < c.offset.toNat ∧ c.offset.toNat < x.exit.toNat))
    ∨ (check = 4 ∧ (c.selector ≠ .any ∨ c.classMask ≠ 0xFFFF) ∧ c.offset.toNat < x.decision.toNat)

/-- Check `check` fails at START for the lane or station of this number (R105). -/
def State.startFails (s : State) (check unit : Nat) : Prop :=
  (check = 1 ∧ unit = 0 ∧ ∀ l : LaneId, s.lanes[l].config.enabled = false)
    ∨ (∃ n : StationId, n.val = unit ∧ s.stations[n].config.enabled = true ∧ s.stationFails check n)
    ∨ (check = 5 ∧ ∃ l : LaneId, l.val = unit ∧ s.lanes[l].config.Disordered
        ∧ ∃ n : StationId, s.stations[n].config.enabled = true ∧ s.stations[n].config.lane = l
            ∧ (s.stations[n].config.selector ≠ .any ∨ s.stations[n].config.classMask ≠ 0xFFFF))
    ∨ (check = 6 ∧ ∃ n m : StationId, n.val = unit ∧ m < n
        ∧ s.stations[n].config.enabled = true ∧ s.stations[m].config.enabled = true
        ∧ s.stations[n].config.confirm ≠ none ∧ s.stations[m].config.confirm = s.stations[n].config.confirm)

/-- Check `check` fails at STATION_ENABLE on of station `n`, with this number to report (R94). -/
def State.enableFails (s : State) (n : StationId) (check unit : Nat) : Prop :=
  (n.val = unit ∧ s.stationFails check n)
    ∨ (check = 5 ∧ s.stations[n].config.lane.val = unit ∧ s.lanes[s.stations[n].config.lane].config.Disordered
        ∧ (s.stations[n].config.selector ≠ .any ∨ s.stations[n].config.classMask ≠ 0xFFFF))
    ∨ (check = 6 ∧ ∃ m : StationId, m.val = unit ∧ m ≠ n ∧ s.stations[m].runtime = .enabled
        ∧ s.stations[n].config.confirm ≠ none ∧ s.stations[m].config.confirm = s.stations[n].config.confirm)

/-- `check` and `unit` are the first failure, checks in number order and units ascending (R105). -/
def FirstFailure (fails : Nat → Nat → Prop) (check unit : Nat) : Prop :=
  fails check unit ∧ ∀ c u, (c < check ∨ (c = check ∧ u < unit)) → ¬ fails c u

/-! ### Stations and watches -/

/-- The station's condition holds for the item (R98). -/
def StationConfig.Matches (c : StationConfig) (i : Item) : Prop :=
  (c.selector = .any ∨ (c.selector = .pass ∧ i.verdict = .pass) ∨ (c.selector = .reject ∧ i.verdict = .reject))
    ∧ c.classMask.getLsbD i.cls.val = true

/-- The state with an OFF entry of station `n` placed at a position (R65). -/
def State.withOff (s : State) (n : StationId) (position : Pos) (rekeyable : Bool) (tag : Tag) : State :=
  let off : Entry := { kind := .off n rekeyable, fire := position, tag := tag, reached := false }
  { s with list := { s.list with entries := insertEntry s.list.firingPoint off s.list.entries } }

/-- `t` is `s` with the holder placed of an activation of station `n` at `fire` for the item: an OFF entry in COUNT mode,
the time pulse started or set back in TIME mode, and in ITEM mode an OFF entry at the cap or at the tail (R77, R100 to
R102). -/
def State.HolderPlaced (s : State) (n : StationId) (fire : Pos) (i : Item) (t : State) : Prop :=
  let c := s.stations[n].config
  let capEnd := fire + c.capWord.zeroExtend 32
  (c.mode = .count ∧ t = s.withOff n (fire + c.pulseWord.zeroExtend 32) false i.tag)
  ∨ (c.mode = .time ∧ t = { s with stations := upd s.stations n (fun st =>
        { st with pulse := some { left := c.pulseWord
                                  reloaded := if st.pulse = none then none else some s.position.tracking } }) })
  ∨ (c.mode = .item ∧ i.trailing = none ∧ t = s.withOff n capEnd true i.tag)
  ∨ (c.mode = .item ∧ ∃ trailing, i.trailing = some trailing ∧
      let tailEnd := trailing + c.pulseWord.zeroExtend 32
      let past := (tailEnd - fire).toNat
      0 < past ∧ past < 2 ^ 31
        ∧ t = s.withOff n (if past ≤ c.capWord.toNat then tailEnd else capEnd) false i.tag)

/-- The miss count of station `n` after one more miss (R131). -/
def State.nextMisses (s : State) (n : StationId) : BitVec 4 :=
  if s.stations[n].misses = 15 then 15 else s.stations[n].misses + 1

/-- One more miss takes station `n` to FAILED (R96, R130). -/
def State.AtLastMiss (s : State) (n : StationId) : Prop :=
  s.stations[n].runtime = .enabled ∧ s.stations[n].config.missLimit ≠ 0
    ∧ s.nextMisses n = s.stations[n].config.missLimit

/-- Watch `w` of station `n` missed, with these watches left and this runtime state: CONFIRM_MISSING, CONFIRM_FAIL on the
live item that holds its tag and lane, and the miss count (steps 1 to 3 of R130). -/
def State.missTaken (s : State) (n : StationId) (w : Watch) (left : List Watch) (runtime : Runtime) (aux : Word) :
    State :=
  State.arrive
    { s with
      stations := upd s.stations n (fun st =>
        { st with runtime := runtime, watches := left, misses := s.nextMisses n })
      queue := { s.queue with items := s.queue.items.map (fun i =>
        if i.tag = w.tag ∧ i.lane = w.lane then { i with confirmFail := true } else i) } }
    (s.recordNow .confirmMissing (BitVec.ofNat 4 n.val) w.tag aux 0)

/-- The miss that takes station `n` to FAILED: no watch and no ON entry of it is left, and STATION_FAILED stands behind
CONFIRM_MISSING (R96, step 4 of R130). -/
def State.missFails (s : State) (n : StationId) (w : Watch) (aux : Word) : State :=
  let missed := s.missTaken n w [] .failed aux
  State.arrive
    { missed with list := { s.list with entries := s.list.entries.filter (fun e => e.kind ≠ .on n) } }
    (s.recordNow .stationFailed (BitVec.ofNat 4 n.val) w.tag 0 0)

/-- A tick: every watch and every time pulse has one taken from its time left, and a time pulse at its last tick ends
(R102, R103, R128). -/
def State.ticked (s : State) : State :=
  { s with
    globals := { s.globals with tickPhase := 0 }
    stations := mapAll (fun st =>
      { st with
        pulse := st.pulse.bind (fun p =>
          if p.left.toNat ≤ 1 then none else some { left := p.left - 1, reloaded := none })
        watches := st.watches.map (fun w => { w with timeLeft := w.timeLeft - 1 }) }) s.stations }

/-! ### Sequences of commands -/

/-- The state after a sequence of commands, each taken at once. -/
def State.after (s : State) : List Instr → State
  | [] => s
  | c :: rest =>
    match exec c s with
    | .next t => t.after rest
    | .fault _ => s
    | .refused _ => s

/-- The words that `n` reads of EVENT_DATA return, one after another. -/
def State.eventReads (s : State) (n : Nat) : List Word :=
  (List.range n).map (fun k => (s.after (List.replicate (k + 1) .eventDataRead)).readData)

end Sys2Proof.Machine
end

