-- ==== Sys2Proof/Certificates/Slice0/Obligations.lean ====
section
/-! DEFINITION. The statements about the GT416 model, for the provers. -/

open Sys2Proof Sys2Proof.Machine

/-! ### The queue of commands, and the clock -/

/-- A step with a command waiting is exec of the front command on the state with the queue's rest. Every step answers
a next state: the part never stops. That commands wait in one queue is the model's choice (notes/assumptions/1.md, 17.md),
and so is that a command which cannot arise changes nothing in place of a stop (notes/assumptions/4.md). -/
def Obligations.StepRunsTheFrontCommand : Prop :=
  (∀ (c : Instr) (rest : List Instr) (s : State),
     step { s with pending := c :: rest } = exec c { s with pending := rest })
  ∧
  (∀ s : State, s.Proceeds)

/-- With no command waiting a step is one CLKIN period: within a tick only the phase of the divider moves, and in
reset or without power nothing does. The last period of a tick, when no watch runs out at it (every watch has two ticks
or more left): every watch and every time pulse has one taken from its time left, and a time pulse at its last tick ends
(R102, R103, R128, R178). When one watch runs out at it, the head of its station's queue, the watch is also missed with
aux A 0; the miss that brings an ENABLED station to its limit makes it FAILED, and with HALT_ON_FAIL on halts the part
with cause STATION_FAIL, here where no time pulse ends at that tick (R96, R129, R130, R131). That an idle step is a CLKIN
period is the model's choice (notes/assumptions/3.md). -/
def Obligations.IdleStepIsAClockPeriod : Prop :=
  (∀ s : State, s.pending = [] →
     (s.running = false → step s = .next s)
     ∧ (s.Quiet → s.globals.tickPhase.toNat + 1 < s.globals.tickDiv.toNat →
         step s = .next { s with globals := { s.globals with tickPhase := s.globals.tickPhase + 1 } }))
  ∧
  (∀ s : State, s.pending = [] → s.Quiet → s.globals.tickDiv.toNat ≤ s.globals.tickPhase.toNat + 1 →
     ((∀ n : StationId, ∀ w ∈ s.stations[n].watches, 2 ≤ w.timeLeft.toNat) → step s = .next s.ticked)
     ∧ ∀ (n : StationId) (w : Watch) (rest : List Watch), s.TagsSound →
         s.stations[n].watches = w :: rest → w.timeLeft.toNat ≤ 1 → (∀ x ∈ rest, 2 ≤ x.timeLeft.toNat) →
         (∀ m : StationId, m ≠ n → ∀ x ∈ s.stations[m].watches, 2 ≤ x.timeLeft.toNat) →
         let left := rest.map (fun x => { x with timeLeft := x.timeLeft - 1 })
         (¬ s.AtLastMiss n → step s = .next (s.ticked.missTaken n w left s.stations[n].runtime 0))
         ∧ (s.AtLastMiss n → s.globals.haltOnFail = false → step s = .next (s.ticked.missFails n w 0))
         ∧ (s.AtLastMiss n → s.globals.haltOnFail = true →
             (∀ m : StationId, ∀ p, s.stations[m].pulse = some p → 2 ≤ p.left.toNat) →
             step s = .next ((s.ticked.missFails n w 0).takeHalt .stationFail)))

/-! ### Supply and reset -/

/-- Power-on reset: it begins at the application of power and leaves every block at its defaults with POWER_ON set; a
loss of power stops the part, and INT_N is not driven (R149, R150). That no OUT pin has a level without power is the
model's choice (notes/assumptions/12.md), and so is that the waiting commands are kept (notes/assumptions/17.md). -/
def Obligations.PowerOnResetGivesTheDefaults : Prop :=
  ∀ s : State,
    (s.power = .off → exec .powerApplied s = .next { s with power := .starting })
    ∧ (s.power = .starting → ∃ t, exec .powerOnResetEnd s = .next t ∧ t.AtDefaults ∧ t.host.powerOn = true
        ∧ t.power = .on ∧ t.pins = s.pins ∧ t.pending = s.pending)
    ∧ (s.power ≠ .off → ∃ t, exec .powerLoss s = .next t ∧ t.power = .off ∧ t.running = false
        ∧ t.intNLow = false ∧ (∀ o, t.outPin o = none) ∧ t.pins = s.pins ∧ t.pending = s.pending)

/-- Hardware reset: while RESET_N is low every register reads 0, the OUT pins are low and INT_N is released; at its
release every block holds its defaults, and POWER_ON is kept through both (R149). An edge of RESET_N without power or
within power-on reset, and a fall of it within hardware reset, moves the pin alone (R150). That the waiting commands are
kept through a reset is the model's choice (notes/assumptions/17.md). -/
def Obligations.HardwareResetGivesTheDefaults : Prop :=
  ∀ s : State,
    (s.running = true → ∃ t, exec .resetNAssert s = .next t ∧ t.inReset = true ∧ (∀ r, t.registerRead r = 0)
        ∧ (∀ o, t.outPin o = some false) ∧ t.intNLow = false ∧ t.host.powerOn = s.host.powerOn
        ∧ t.power = s.power ∧ t.pins = { s.pins with resetN := false } ∧ t.pending = s.pending)
    ∧ (s.power = .on → s.pins.resetN = false → ∃ t, exec .resetNRelease s = .next t ∧ t.AtDefaults
        ∧ t.running = true ∧ t.host.powerOn = s.host.powerOn ∧ t.pins = { s.pins with resetN := true }
        ∧ t.pending = s.pending)
    ∧ (s.running = false → exec .resetNAssert s = .next { s with pins := { s.pins with resetN := false } })
    ∧ (s.power ≠ .on → exec .resetNRelease s = .next { s with pins := { s.pins with resetN := true } })

/-- In reset, and without power, no command but the supply and reset commands does anything, except that a pin event sets
its own pin to the level it names and a read in reset returns 0; every other pin, the word last read, and all else are
kept (R149, R150, R166). -/
def Obligations.NothingIsTakenInReset : Prop :=
  ∀ (c : Instr) (s : State), isResetCommand c = false → s.running = false → exec c s = .next (s.unheard c)

/-! ### The belt -/

/-- QUAD decoding in SETUP, from every place of the sequence and with the invert on or off: one place on is a forward
step, one place back a backward step, no change is none (R1, R3, R5, R7, R85). -/
def Obligations.QuadratureStepsInSetup : Prop :=
  ∀ (s : State) (k : Fin 4), s.Quiet → s.control.op = .setup → s.position.mode = .quad →
    (s.position.refA, s.position.refB) = quadSequence k →
    exec (.encoderTransition (quadSequence (k + 1)).1 (quadSequence (k + 1)).2) s
        = .next (s.setupStep (quadSequence (k + 1)).1 (quadSequence (k + 1)).2 (s.counted true))
    ∧ exec (.encoderTransition (quadSequence (k - 1)).1 (quadSequence (k - 1)).2) s
        = .next (s.setupStep (quadSequence (k - 1)).1 (quadSequence (k - 1)).2 (s.counted false))
    ∧ exec (.encoderTransition (quadSequence k).1 (quadSequence k).2) s
        = .next (s.atPair (quadSequence k).1 (quadSequence k).2)

/-- PULSE_DIR decoding in SETUP: a rise of ENC_A is a count whose direction is the new level of ENC_B, low for
forward, before the invert; every other change only moves the reference, and none is an error (R2, R3). That the new
level of ENC_B counts is the model's reading (notes/assumptions/9.md). -/
def Obligations.PulseDirectionStepsInSetup : Prop :=
  ∀ (s : State) (a b : Level), s.Quiet → s.control.op = .setup → s.position.mode = .pulseDir →
    (s.position.refA = false → a = true → exec (.encoderTransition a b) s = .next (s.setupStep a b (s.counted (!b))))
    ∧ (s.position.refA = true ∨ a = false → exec (.encoderTransition a b) s = .next (s.atPair a b))

/-- A QUAD encoder error, both lines changed: no position moves, the reference is the new pair, the error count
rises, and by the operating state nothing more, a halt request with cause ENCODER, or the ENCODER bit of the mask
(R4). With no command waiting the request is taken at once; with one waiting it may be taken after it (R143). -/
def Obligations.EncoderErrorIsCounted : Prop :=
  ∀ s : State, s.Quiet → s.position.mode = .quad →
    let p := s.atPair (!s.position.refA) (!s.position.refB)
    let counted := { p with position := { p.position with errors := s.position.errors + 1 } }
    let outcome := exec (.encoderTransition (!s.position.refA) (!s.position.refB)) s
    (s.control.op = .setup → outcome = .next counted)
    ∧ (s.control.op = .tracking → counted.Requested .encoder outcome)
    ∧ (s.control.op = .halted →
        outcome = .next { counted with control := { s.control with causeMask := s.control.causeMask ||| 0b000100 } })

/-- Transitions of the encoder outside SETUP at which no block has anything to take, in both modes and with the invert on
or off. One that is no step moves the pins and the decoder reference alone (R1, R2), in every operating state. In TRACKING
an advance moves the counter, the tracking position and the firing point together; a backward step within the tolerance,
and a forward step in re-travel, move the counter alone; so does the regain when every lane stays as it is, and at every
regain the lanes re-sample, one after another (R3, R5, R8, R10, R31). The backward step that takes the reverse amount from
the tolerance to one more sends a halt request with cause OVER_REVERSE in TRACKING, and only there (R11); with no command
waiting it is taken at once. That the requests raised by a re-sampling are taken only after all four lanes have re-sampled
is the model's choice (notes/assumptions/10.md); that in PULSE_DIR the new level of ENC_B counts is its reading
(notes/assumptions/9.md). -/
def Obligations.StepsInTracking : Prop :=
  (∀ (s : State) (a b : Level), s.Quiet → s.IsNoStep a b → exec (.encoderTransition a b) s = .next (s.atPair a b))
  ∧
  (∀ (s : State) (a b : Level), s.Quiet → s.control.op = .tracking →
     let outcome := exec (.encoderTransition a b) s
     (s.IsStep true a b →
       (s.reverse = 0 → (∀ l, (s.advanced a b).laneDue l = false) →
         (∀ e ∈ s.list.entries, e.fire ≠ s.position.tracking + 1) →
         outcome = .next
           { s.advanced a b with list := { s.list with firingPoint := s.position.tracking + 1 } })
       ∧ (2 ≤ s.reverse.toNat → outcome = .next (s.regained a b))
       ∧ (s.reverse = 1 → (∀ l, s.LaneSettled l) → outcome = .next (s.regained a b))
       ∧ (s.reverse = 1 → ∃ (order : List LaneId) (n : Nat), order.Perm [0, 1, 2, 3] ∧
           outcome
             = .next (State.arriveHalts { order.foldl State.laneResample (s.regained a b) with choices := n })))
     ∧ (s.IsStep false a b →
         (s.reverse.toNat < s.position.tolerance.toNat → outcome = .next (s.withdrawn a b))
         ∧ (s.reverse.toNat = s.position.tolerance.toNat →
             (s.withdrawn a b).Requested .overReverse outcome)))
  ∧
  (∀ (s : State) (a b : Level), s.Quiet → s.control.op = .halted → s.IsStep false a b →
     exec (.encoderTransition a b) s = .next (s.withdrawn a b))

/-- In HALTED, in both encoder modes and with the invert on or off, a forward step from reverse amount 0 advances the
tracking position and marks the entries it reaches, firing none; in re-travel it moves the counter alone (R2, R3, R8, R10,
R81). In PULSE_DIR the new level of ENC_B counts, which is the model's reading (notes/assumptions/9.md). -/
def Obligations.HaltedAdvanceMarksEntries : Prop :=
  ∀ (s : State) (a b : Level),
    (s.Advances .halted a b → exec (.encoderTransition a b) s = .next
      { s.advanced a b with
        list := { s.list with entries := s.list.entries.map (fun e =>
          if e.fire = s.position.tracking + 1 then { e with reached := true } else e) } })
    ∧ (s.Quiet → s.control.op = .halted → s.IsStep true a b → s.reverse ≠ 0 →
        exec (.encoderTransition a b) s = .next (s.regained a b))

/-! ### The action list -/

/-- Placing an entry: it goes after every entry of smaller forward distance and after those at its own fire position
whose kind is not later, before all others, and the others keep their order (R65). -/
def Obligations.PlacingKeepsListOrder : Prop :=
  ∀ (p : Pos) (e : Entry) (es : List Entry), es.Pairwise (Entry.NotAfter p) →
    (insertEntry p e es).Pairwise (Entry.NotAfter p)
    ∧ ∃ before after, es = before ++ after ∧ insertEntry p e es = before ++ e :: after
        ∧ (∀ x ∈ before, Entry.NotAfter p x e) ∧ ∀ x ∈ after, ¬ Entry.NotAfter p x e

/-- An advance in TRACKING with no lane acting, in both encoder modes and with the invert on or off, takes every entry it
reaches: none is left at the new tracking position, the firing point is there, and the entries elsewhere, but for the ON
entries of a station that fails in the firing, stay in the list as they were and in their order, the re-keyable mark alone
possibly cleared (R71, R73). An advance in TRACKING that reaches one entry, of any kind, with no lane acting, is the firing
of that entry (R71 to R74); a halt request that it raises is on its way when the firing is complete (R78). In PULSE_DIR the
new level of ENC_B counts, which is the model's reading (notes/assumptions/9.md). -/
def Obligations.AdvanceFiresWhatItReaches : Prop :=
  (∀ (s : State) (a b : Level), s.Advances .tracking a b → s.ConfigSound →
     (∀ l, (s.advanced a b).laneDue l = false) →
     ∃ t, exec (.encoderTransition a b) s = .next t
       ∧ t.position = (s.advanced a b).position ∧ t.list.firingPoint = s.position.tracking + 1
       ∧ (∀ e ∈ t.list.entries, e.fire ≠ s.position.tracking + 1)
       ∧ ∃ kept : List Entry, kept.Sublist t.list.entries ∧
           List.Forall₂ (fun e e' => e' = e ∨ e' = e.unmark)
             (s.list.entries.filter (fun e => decide (e.fire ≠ s.position.tracking + 1 ∧
               ∀ n, e.kind = .on n → t.stations[n].runtime = s.stations[n].runtime)))
             kept)
  ∧
  (∀ (s : State) (a b : Level) (e : Entry) (before after : List Entry), s.Advances .tracking a b → s.ConfigSound →
     (∀ l, (s.advanced a b).laneDue l = false) →
     s.list.entries = before ++ e :: after → e.fire = s.position.tracking + 1 →
     (∀ x ∈ before ++ after, x.fire ≠ s.position.tracking + 1) →
     let taken := { s.advanced a b with list := { s.list with entries := before ++ after } }
     let fired := taken.fireEntry e
     exec (.encoderTransition a b) s
       = .next (State.arriveHalts { fired with list := { fired.list with firingPoint := s.position.tracking + 1 } })
     ∧ ((∀ n, e.kind = .on n → taken.fireEntry e = taken.fireOn n e.fire e.tag)
       ∧ (e.kind = .deadline → taken.fireEntry e = taken.fireDeadline e.tag)
       ∧ (e.kind = .retire → taken.fireEntry e = taken.retireItem e.tag)
       ∧ ∀ n r, e.kind = .off n r → taken.fireEntry e = taken))

/-- An OFF entry that fires only leaves the list (R72), and one holder of its station's line goes with it (R110).
TIME_PULSE_END: a running time pulse is stopped, its line loses one holder, no other line does, and nothing else changes
(R103, R110). The end of a time pulse and an activation of its station at one moment leave it running with the full pulse
word, whichever is taken first (R104). That the row ends the pulse whatever time the model still shows, and that the end
of a stopped pulse changes nothing, are the model's choices (notes/assumptions/3.md, 4.md). -/
def Obligations.HoldersEndOneByOne : Prop :=
  (∀ (s : State) (e : Entry) (before after : List Entry) (n : StationId) (r : Bool),
     s.list.entries = before ++ e :: after → e.kind = .off n r →
     let t := { s with list := { s.list with entries := before ++ after } }
     t.fireEntry e = t
     ∧ s.holders s.stations[n].config.output = t.holders s.stations[n].config.output + 1
     ∧ ∀ o, o ≠ s.stations[n].config.output → s.holders o = t.holders o)
  ∧
  (∀ (s : State) (n : StationId), s.Quiet →
     let pulse (p : Option TimePulse) : State := { s with stations := upd s.stations n (fun st => { st with pulse := p }) }
     (s.stations[n].pulse = none → exec (.timePulseEnd n) s = .next s)
     ∧ ∀ p, s.stations[n].pulse = some p →
         (p.reloaded ≠ some s.position.tracking → exec (.timePulseEnd n) s = .next (pulse none)
           ∧ s.holders s.stations[n].config.output = (pulse none).holders s.stations[n].config.output + 1
           ∧ ∀ o, o ≠ s.stations[n].config.output → s.holders o = (pulse none).holders o)
         ∧ (p.reloaded = some s.position.tracking →
             exec (.timePulseEnd n) s = .next (pulse (some { p with reloaded := none }))))
  ∧
  (∀ (s : State) (n : StationId) (fire : Pos) (i : Item) (p : TimePulse), s.Quiet → s.TagsSound → i ∈ s.queue.items →
     s.stations[n].config.mode = .time → s.stations[n].config.confirm = none → s.stations[n].config.Matches i →
     s.stations[n].pulse = some p →
     (∃ t, exec (.timePulseEnd n) (s.fireOn n fire i.tag) = .next t
       ∧ t.stations[n].pulse.map TimePulse.left = some s.stations[n].config.pulseWord)
     ∧ ∃ t, exec (.timePulseEnd n) s = .next t
       ∧ (t.fireOn n fire i.tag).stations[n].pulse.map TimePulse.left = some s.stations[n].config.pulseWord)

/-- A DEADLINE entry fires: an UNDECIDED item takes its lane's default verdict, counted and reported; an item with a
verdict only becomes final; a final item is left alone (R44). -/
def Obligations.DeadlineClosesTheVerdict : Prop :=
  ∀ (s : State) (i : Item), s.TagsSound → i ∈ s.queue.items →
    let closed (x : Item) : State :=
      { s with queue := { s.queue with items := s.queue.items.map (fun y => if y.tag = i.tag then x else y) } }
    let verdict := s.lanes[i.lane].config.defaultVerdict.verdict
    (i.final = true → s.fireDeadline i.tag = s)
    ∧ (i.final = false → i.verdict ≠ .undecided → s.fireDeadline i.tag = closed { i with final := true })
    ∧ (i.final = false → i.verdict = .undecided →
        s.fireDeadline i.tag
          = State.arrive
              { closed { i with verdict := verdict, source := .default, reason := 0, final := true } with
                lanes := upd s.lanes i.lane (fun x =>
                  { x with counters := { x.counters with defaults := x.counters.defaults + 1 } }) }
              (s.recordNow .verdictDefaulted (BitVec.ofNat 4 i.lane.val) i.tag (BitVec.ofNat 16 verdict.code) 0))

/-- A RETIRE entry fires for a live item: an item that is not final first has its verdict closed, an UNDECIDED one by its
lane's default with the defaults counter and VERDICT_DEFAULTED; then NO_TRAILING with its counter when the lane still has
its link on the item, the retired counter, ITEM_RETIRED as the record then stands, the record freed and the re-keyable
marks of its OFF entries cleared (R44, R45, R59, R60, R73). -/
def Obligations.RetireFreesTheItem : Prop :=
  ∀ (s : State) (i : Item), s.TagsSound → i ∈ s.queue.items →
    let defaulted : Bool := !i.final && i.verdict == .undecided
    let verdict := if defaulted then s.lanes[i.lane].config.defaultVerdict.verdict else i.verdict
    let source := if defaulted then .default else i.source
    let reason := if defaulted then 0 else i.reason
    let linked := s.lanes[i.lane].detector.link = some i.tag
    let noTrailing := i.noTrailing || s.linked i.lane i.tag
    let low : BitVec 4 := (if i.short then 1 else 0) + (if i.long then 2 else 0) + (if noTrailing then 4 else 0)
      + (if i.missed then 8 else 0)
    let auxA : Word := BitVec.ofNat 16 ((if i.confirmFail then 1 else 0) + 2 * verdict.code + 8 * source.code
      + 256 * reason.toNat)
    let freed : State :=
      { s with
        queue := { s.queue with items := s.queue.items.filter (fun x => x.tag ≠ i.tag) }
        list := { s.list with entries := s.list.entries.map (fun e => if e.tag = i.tag then e.unmark else e) }
        lanes := upd s.lanes i.lane (fun x =>
          { x with
            counters := { x.counters with
                          retired := x.counters.retired + 1
                          defaults := x.counters.defaults + if defaulted then 1 else 0
                          noTrailing := x.counters.noTrailing + if s.linked i.lane i.tag then 1 else 0 }
            detector := if s.linked i.lane i.tag then x.detector.unlink else x.detector }) }
    (s.linked i.lane i.tag = true ↔ linked)
    ∧ s.retireItem i.tag
        = State.arrive
            (if defaulted then
              freed.arrive (s.recordNow .verdictDefaulted (BitVec.ofNat 4 i.lane.val) i.tag (BitVec.ofNat 16 verdict.code) 0)
             else freed)
            { s.recordNow .itemRetired (BitVec.ofNat 4 i.lane.val) i.tag auxA i.fired with low := low }

/-- Re-keying against a trailing position: each re-keyable OFF entry of the tag leaves the list when its candidate is
reached, moves to the candidate when that is behind its fire position, else stays; each loses its mark, and no other
entry changes (R79). -/
def Obligations.RekeyingShortensPulses : Prop :=
  ∀ (s : State) (tag : Tag) (trailing : Pos),
    let here := s.position.tracking
    let rekeyed (e : Entry) (n : StationId) : Option Entry :=
      let candidate := trailing + s.stations[n].config.pulseWord.zeroExtend 32
      if candidate = here ∨ 2 ^ 31 ≤ (candidate - here).toNat then none
      else if 2 ^ 31 ≤ (candidate - e.fire).toNat then some { e with kind := .off n false, fire := candidate }
      else some { e with kind := .off n false }
    let after (e : Entry) : Option Entry :=
      match e.kind with
      | .off n true => if e.tag = tag then rekeyed e n else some e
      | .off _ false => some e
      | .deadline => some e
      | .on _ => some e
      | .retire => some e
    (s.rekey tag trailing).list.entries.Perm (s.list.entries.filterMap after)
    ∧ s.rekey tag trailing = { s with list := { s.list with entries := (s.rekey tag trailing).list.entries } }

/-! ### Stations -/

/-- An ON entry fires: when the selector does not match the item's verdict, or the class mask lacks its class,
nothing happens (R98); when both match, the holder of the station's pulse mode is placed, the item's fired mask takes the
station's mark, and a station with a confirm input starts a watch of its window: at the end of its queue with fewer than
four pending; with four the head is first missed by overtaking, aux A 1, and the new watch is appended only when the
station has not failed by it; with HALT_ON_FAIL on the failure sends a halt request with cause STATION_FAIL (R96, R99 to
R102, R125, R130). -/
def Obligations.OnEntryActivates : Prop :=
  ∀ (s : State) (n : StationId) (fire : Pos) (i : Item), s.TagsSound → i ∈ s.queue.items →
    let c := s.stations[n].config
    (¬ c.Matches i → s.fireOn n fire i.tag = s)
    ∧ ∀ placed, c.Matches i → s.HolderPlaced n fire i placed →
        let marked : State := { placed with queue := { s.queue with items := s.queue.items.map (fun x =>
          if x.tag = i.tag then { i with fired := i.fired ||| (1#16 <<< n.val) } else x) } }
        let watched (t : State) : State := { t with stations := upd t.stations n (fun st =>
          { st with watches := st.watches ++ [{ tag := i.tag, lane := i.lane, timeLeft := c.window }] }) }
        (c.confirm = none → s.fireOn n fire i.tag = marked)
        ∧ ∀ input, c.confirm = some input →
            (s.stations[n].watches.length < 4 → s.fireOn n fire i.tag = watched marked)
            ∧ ∀ w rest, s.stations[n].runtime = .enabled → s.stations[n].watches = w :: rest → rest.length = 3 →
                let failed := marked.missFails n w 1
                (¬ s.AtLastMiss n → s.fireOn n fire i.tag = watched (marked.missTaken n w rest .enabled 1))
                ∧ (s.AtLastMiss n →
                    s.fireOn n fire i.tag = if s.globals.haltOnFail then failed.requestHalt .stationFail else failed)

/-- An ITEM-mode station with its condition true: the OFF entry goes at the cap, re-keyable, while the trailing
position is absent; else at the tail or at the cap, whichever comes first; and a station that the item has passed
does not activate, with or without a confirm input (R77, R101). -/
def Obligations.ItemModeFollowsTheProduct : Prop :=
  ∀ (s : State) (n : StationId) (fire : Pos) (i : Item), s.TagsSound → i ∈ s.queue.items →
    s.stations[n].config.mode = .item → s.stations[n].config.Matches i →
    let c := s.stations[n].config
    let capEnd := fire + c.capWord.zeroExtend 32
    let marked : State := { s with queue := { s.queue with items := s.queue.items.map (fun x =>
      if x.tag = i.tag then { i with fired := i.fired ||| (1#16 <<< n.val) } else x) } }
    (c.confirm = none → i.trailing = none → s.fireOn n fire i.tag = marked.withOff n capEnd true i.tag)
    ∧ ∀ trailing, i.trailing = some trailing →
        let tailEnd := trailing + c.pulseWord.zeroExtend 32
        let past := (tailEnd - fire).toNat
        (past = 0 ∨ 2 ^ 31 ≤ past → s.fireOn n fire i.tag = s)
        ∧ (c.confirm = none → 0 < past → past < 2 ^ 31 →
            s.fireOn n fire i.tag = marked.withOff n (if past ≤ c.capWord.toNat then tailEnd else capEnd) false i.tag)

/-! ### The confirmation monitor -/

/-- WATCH_EXPIRY of a miss that does not bring an ENABLED station to its limit: the head watch leaves the queue,
CONFIRM_MISSING with aux A 0 is queued, CONFIRM_FAIL is set on the live item that holds the watch's tag and lane, and the
miss count rises, staying at 15 (R129, R130, R131). The miss that brings it there makes the station FAILED, in the order
of R96: no ON entry of the station and no watch is left, STATION_FAILED stands behind CONFIRM_MISSING, and with
HALT_ON_FAIL on a halt request with cause STATION_FAIL goes to operating control, which with no command waiting takes it
at once (R96, R130, R143). That the row takes the head watch whatever time the model still shows is the model's choice
(notes/assumptions/3.md); a miss by overtaking is stated with the activation. -/
def Obligations.WatchExpiryIsAMiss : Prop :=
  ∀ (s : State) (n : StationId) (w : Watch) (rest : List Watch), s.Quiet → s.TagsSound →
    s.stations[n].watches = w :: rest →
    let outcome := exec (.watchExpiry n) s
    (¬ s.AtLastMiss n → outcome = .next (s.missTaken n w rest s.stations[n].runtime 0))
    ∧ (s.AtLastMiss n → s.globals.haltOnFail = false → outcome = .next (s.missFails n w 0))
    ∧ (s.AtLastMiss n → s.globals.haltOnFail = true → (s.missFails n w 0).Requested .stationFail outcome)

/-- A confirm edge of an owned input with a watch pending answers the head watch: it is removed and the miss count is
0; no item, event or other station changes (R126). A confirm edge of an owned input that finds no watch is a stray,
counted with wrap, in TRACKING and HALTED; an edge of an unowned input, and an edge of the other kind, move no count
(R123, R127). -/
def Obligations.ConfirmEdges : Prop :=
  (∀ (s : State) (input : InputId) (n : StationId) (w : Watch) (rest : List Watch), s.Quiet →
     (∀ m : StationId, s.stations[m].runtime = .enabled ∧ s.stations[m].config.confirm = some input ↔ m = n) →
     s.cfmRef[input] = s.stations[n].config.falling → s.stations[n].watches = w :: rest →
     exec (.confirmEdge input (!s.stations[n].config.falling)) s = .next
       { s with
         pins := { s.pins with cfm := upd s.pins.cfm input (fun _ => !s.stations[n].config.falling) }
         cfmRef := upd s.cfmRef input (fun _ => !s.stations[n].config.falling)
         stations := upd s.stations n (fun st => { st with watches := rest, misses := 0 }) })
  ∧
  (∀ (s : State) (input : InputId) (rising : Bool), s.Quiet → s.cfmRef[input] = !rising →
     let sampled := { s with
       pins := { s.pins with cfm := upd s.pins.cfm input (fun _ => rising) }
       cfmRef := upd s.cfmRef input (fun _ => rising) }
     ((∀ m : StationId, s.stations[m].runtime ≠ .enabled ∨ s.stations[m].config.confirm ≠ some input) →
       exec (.confirmEdge input rising) s = .next sampled)
     ∧ ∀ n : StationId,
         (∀ m : StationId, s.stations[m].runtime = .enabled ∧ s.stations[m].config.confirm = some input ↔ m = n) →
         (s.stations[n].config.falling = rising → exec (.confirmEdge input rising) s = .next sampled)
         ∧ (s.stations[n].config.falling = !rising → s.stations[n].watches = [] →
             exec (.confirmEdge input rising) s = .next
               { sampled with stations := upd s.stations n (fun st => { st with strays := st.strays + 1 }) }))

/-! ### The lane detectors -/

/-- A change at a DET pin: with the detectors blanked, or the lane OFF, only the pin changes; else the detector moves
as its state and the new input say: WAIT_CLEAR ends, CLEAR captures, FILTERING glitches, OCCUPIED stamps a candidate, or
drops it, with the LONG finding of its item when its conditions hold then (R12, R18 to R21, R25, R28, R30). An advance in
TRACKING, in both encoder modes, that is one lane's: it accepts the leading edge at its capture position, or the trailing
edge at its candidate, once the filter distance is reached (R21, R25), or makes the LONG finding of its item (R28, R29).
A re-sampling moves the detector as its state and input say, and accepts edges at the re-sample position (R31). In
PULSE_DIR the new level of ENC_B counts, which is the model's reading (notes/assumptions/9.md). -/
def Obligations.DetectorFollowsItsInput : Prop :=
  (∀ (s : State) (l : LaneId) (level : Level), s.Quiet → s.pins.det[l] ≠ level →
     let sampled := { s with pins := { s.pins with det := upd s.pins.det l (fun _ => level) } }
     let outcome := exec (.detInputChange l level) s
     let moved (d : Detector) : State := { sampled with lanes := upd s.lanes l (fun x => { x with detector := d }) }
     let active := level ≠ s.lanes[l].config.activeLow
     (s.blanked = true ∨ s.lanes[l].detector = .off → outcome = .next sampled)
     ∧ (s.blanked = false → s.lanes[l].detector = .waitClear → ¬ active → outcome = .next (moved .clear))
     ∧ (s.blanked = false → s.lanes[l].detector = .clear → active → s.lanes[l].config.filter ≠ 0 →
         outcome = .next (moved (.filtering s.position.tracking)))
     ∧ (∀ capture, s.blanked = false → s.lanes[l].detector = .filtering capture → ¬ active →
         outcome = .next { sampled with lanes := upd s.lanes l (fun x =>
           { x with detector := .clear, counters := { x.counters with glitches := x.counters.glitches + 1 } }) })
     ∧ (∀ link candidate, s.blanked = false → s.lanes[l].detector = .occupied link candidate → ¬ active →
         s.lanes[l].config.filter ≠ 0 → outcome = .next (moved (.occupied link (some s.position.tracking))))
     ∧ (∀ link candidate, s.blanked = false → s.lanes[l].detector = .occupied link candidate → active →
         (∀ i ∈ s.queue.items, link = some i.tag → ¬ s.LongHolds l i) → outcome = .next (moved (.occupied link none)))
     ∧ (∀ i candidate, s.blanked = false → s.TagsSound → i ∈ s.queue.items →
         s.lanes[l].detector = .occupied (some i.tag) candidate → active → s.LongHolds l i →
         outcome = .next ((moved (.occupied (some i.tag) none)).longFound l i)))
  ∧
  (∀ (s : State) (l : LaneId) (a b : Level), s.OnlyLane l a b →
     let here := s.position.tracking + 1
     let filter := s.lanes[l].config.filter.zeroExtend 32
     let done (t : State) : Host.Outcome State Fault Refusal :=
       .next (State.arriveHalts { t with list := { t.list with firingPoint := here } })
     let outcome := exec (.encoderTransition a b) s
     (∀ capture, s.lanes[l].detector = .filtering capture → s.inputActive l = true → AtOrBehind (capture + filter) here →
       outcome = done ((s.advanced a b).acceptLeading l capture))
     ∧ (∀ link candidate, s.lanes[l].detector = .occupied link (some candidate) → s.inputActive l = false →
         AtOrBehind (candidate + filter) here → outcome = done ((s.advanced a b).acceptTrailing l link candidate))
     ∧ (∀ i, s.TagsSound → i ∈ s.queue.items → s.lanes[l].detector = .occupied (some i.tag) none →
         s.inputActive l = true → (s.advanced a b).LongHolds l i → outcome = done ((s.advanced a b).longFound l i)))
  ∧
  (∀ (s : State) (l : LaneId), s.blanked = false →
     let here := s.position.tracking
     let moved (d : Detector) : State := { s with lanes := upd s.lanes l (fun x => { x with detector := d }) }
     let after := s.laneResample l
     (s.LaneSettled l → after = s)
     ∧ (s.lanes[l].detector = .waitClear → s.inputActive l = false → after = moved .clear)
     ∧ (s.lanes[l].detector = .clear → s.inputActive l = true →
         after = if s.lanes[l].config.filter = 0 then s.acceptLeading l here else moved (.filtering here))
     ∧ (∀ capture, s.lanes[l].detector = .filtering capture →
         (s.inputActive l = true → after = moved (.filtering here))
         ∧ (s.inputActive l = false → after = { s with lanes := upd s.lanes l (fun x =>
             { x with detector := .clear, counters := { x.counters with glitches := x.counters.glitches + 1 } }) }))
     ∧ (∀ link candidate, s.lanes[l].detector = .occupied link candidate →
         (s.inputActive l = false → after = s.acceptTrailing l link here)
         ∧ (s.inputActive l = true → (∀ i ∈ s.queue.items, link = some i.tag → ¬ s.LongHolds l i) →
             after = moved (.occupied link none))
         ∧ ∀ i, s.inputActive l = true → s.TagsSound → i ∈ s.queue.items → link = some i.tag → s.LongHolds l i →
             after = (moved (.occupied link none)).longFound l i))

/-- A leading edge accepted at a position, in a lane where the pitch check passes and the pool and the list have
room: the item is admitted with the first tag from the next tag on that no live item holds, its record, entries and
ITEM_ADMITTED as the manual gives them, the lane is linked to it, and the LONG finding is made when its conditions
hold then (R22, R23, R28, R37, R40). With filter distance 0 the edge is accepted at once, at the change of the input
(R20). -/
def Obligations.LeadingEdgeIsAdmitted : Prop :=
  (∀ (s : State) (l : LaneId) (pos : Pos), s.TagsSound → ¬ s.lanes[l].PitchShort pos →
     s.queue.items.length < 64 → s.slotsUsed + s.slotNeed l ≤ 192 →
     let item (tag : Tag) : Item :=
       { tag := tag, lane := l, leading := pos, trailing := none, length := none, verdict := .undecided,
         source := .none, reason := 0, cls := s.lanes[l].config.defaultClass, final := false, short := false,
         long := false, noTrailing := false, missed := false, confirmFail := false, fired := 0 }
     let linked (tag : Tag) (x : Lane) : Lane :=
       { x with
         detector := .occupied (some tag) none
         previous := some pos
         counters := { x.counters with leading := x.counters.leading + 1, admitted := x.counters.admitted + 1 } }
     let admitted (tag : Tag) : State :=
       State.arrive
         { s with
           queue := { items := s.queue.items ++ [item tag], nextTag := tagAfter tag }
           list := { s.list with entries :=
             (s.plan l pos tag).foldl (fun es e => insertEntry s.list.firingPoint e es) s.list.entries }
           lanes := upd s.lanes l (linked tag) }
         (s.recordNow .itemAdmitted (BitVec.ofNat 4 l.val) tag (lo pos) (hi pos))
     ∃ (tag : Tag) (k : Nat), tag = tagAfter^[k] s.queue.nextTag
       ∧ (∀ j, j < k → ∃ i ∈ s.queue.items, i.tag = tagAfter^[j] s.queue.nextTag)
       ∧ tag ≠ 0 ∧ (∀ i ∈ s.queue.items, i.tag ≠ tag)
       ∧ (s.blanked = true ∨ s.inputActive l = false ∨ ¬ s.LongHolds l (item tag) → s.acceptLeading l pos = admitted tag)
       ∧ (s.blanked = false → s.inputActive l = true → s.LongHolds l (item tag) →
           s.acceptLeading l pos = (admitted tag).longFound l (item tag)))
  ∧
  (∀ (s : State) (l : LaneId) (level : Level), s.Quiet → s.blanked = false → s.pins.det[l] ≠ level →
     s.lanes[l].detector = .clear → level ≠ s.lanes[l].config.activeLow → s.lanes[l].config.filter = 0 →
     let sampled := { s with pins := { s.pins with det := upd s.pins.det l (fun _ => level) } }
     exec (.detInputChange l level) s = .next (sampled.acceptLeading l s.position.tracking).arriveHalts)

/-- The entries of an admission: a RETIRE at the exit distance; a DEADLINE at the decision distance exactly when an
ENABLED station of the lane is verdict-dependent; one ON for each ENABLED station of the lane, at its offset, in
ascending order; and their slots are the need the admission was judged by (R39, R40, R69, R89). -/
def Obligations.PlanOfAnItem : Prop :=
  ∀ (s : State) (l : LaneId) (leading : Pos) (tag : Tag),
    let serves (n : StationId) : Prop := s.stations[n].runtime = .enabled ∧ s.stations[n].config.lane = l
    let dependent (n : StationId) : Prop :=
      s.stations[n].config.selector ≠ .any ∨ s.stations[n].config.classMask ≠ 0xFFFF
    ∃ (deadline : List Entry) (served : List StationId),
      s.plan l leading tag
        = { kind := .retire, fire := leading + s.lanes[l].config.exit.zeroExtend 32, tag := tag, reached := false }
          :: deadline
          ++ served.map (fun n =>
              { kind := .on n, fire := leading + s.stations[n].config.offset.zeroExtend 32, tag := tag, reached := false })
      ∧ (∀ n, n ∈ served ↔ serves n) ∧ served.Pairwise (· < ·)
      ∧ ((∃ n, serves n ∧ dependent n) → deadline =
          [{ kind := .deadline, fire := leading + s.lanes[l].config.decision.zeroExtend 32, tag := tag, reached := false }])
      ∧ ((∀ n, serves n → ¬ dependent n) → deadline = [])
      ∧ s.slotNeed l = 1 + deadline.length + 2 * served.length

/-- A leading edge that is pitch-ignored, or refused because all 64 records are in use (NO_RECORD) or the slots are too
few (NO_SLOTS): counted, reported with its reason, followed without a link; with overflow policy HALT a refusal sends a
halt request with cause QUEUE_FULL (R22, R24, R38, R39). So it is at any position, and at the change of the input in a
lane with filter distance 0, where with no command waiting the request is taken at once (R20, R143). -/
def Obligations.LeadingEdgeIsRefused : Prop :=
  (∀ (s : State) (l : LaneId) (pos : Pos),
     let followed (f : LaneCounters → LaneCounters) : State :=
       { s with lanes := upd s.lanes l (fun x =>
           { x with detector := .occupied none none, previous := some pos, counters := f x.counters }) }
     let refused (reason : Word) : State :=
       let reported := (followed (fun c => { c with leading := c.leading + 1, refused := c.refused + 1 })).arrive
         (s.recordNow .itemRefused (BitVec.ofNat 4 l.val) 0 reason 0)
       if s.lanes[l].config.overflow = .halt then reported.requestHalt .queueFull else reported
     let short := s.lanes[l].config.minPitch ≠ 0 ∧
       ∃ q, s.lanes[l].previous = some q ∧ (pos - q).toNat < s.lanes[l].config.minPitch.toNat
     (short → s.acceptLeading l pos
         = followed (fun c => { c with leading := c.leading + 1, pitchIgnored := c.pitchIgnored + 1 }))
     ∧ (¬ short → 64 ≤ s.queue.items.length → s.acceptLeading l pos = refused 1)
     ∧ (¬ short → s.queue.items.length < 64 → 192 < s.slotsUsed + s.slotNeed l → s.acceptLeading l pos = refused 2))
  ∧
  (∀ (s : State) (l : LaneId) (level : Level), s.Quiet → s.control.op = .tracking → s.reverse = 0 →
     s.pins.det[l] ≠ level → s.lanes[l].detector = .clear → level ≠ s.lanes[l].config.activeLow →
     s.lanes[l].config.filter = 0 →
     let here := s.position.tracking
     let followed (f : LaneCounters → LaneCounters) : State :=
       { s with
         pins := { s.pins with det := upd s.pins.det l (fun _ => level) }
         lanes := upd s.lanes l (fun x =>
           { x with detector := .occupied none none, previous := some here, counters := f x.counters }) }
     let refused (reason : Word) : State :=
       (followed (fun c => { c with leading := c.leading + 1, refused := c.refused + 1 })).arrive
         (s.recordNow .itemRefused (BitVec.ofNat 4 l.val) 0 reason 0)
     let outcome := exec (.detInputChange l level) s
     let ends (t : State) : Prop :=
       if s.lanes[l].config.overflow = .halt then t.Requested .queueFull outcome else outcome = .next t
     let short := s.lanes[l].config.minPitch ≠ 0 ∧
       ∃ q, s.lanes[l].previous = some q ∧ (here - q).toNat < s.lanes[l].config.minPitch.toNat
     (short → outcome = .next
         (followed (fun c => { c with leading := c.leading + 1, pitchIgnored := c.pitchIgnored + 1 })))
     ∧ (¬ short → 64 ≤ s.queue.items.length → ends (refused 1))
     ∧ (¬ short → s.queue.items.length < 64 → 192 < s.slotsUsed + s.slotNeed l → ends (refused 2)))

/-- A trailing edge accepted at a position: unlinked, the lane only clears; linked, the record takes the trailing position
and the length, a length that is not less than the max length is a LONG finding with ITEM_JAM unless one was made, a
length below the min length sets SHORT, each with size policy REJECT forces the verdict of an item that is not final, F1h
or F0h, the re-keyable OFF entries are re-keyed, and ITEM_LENGTH is queued (R25, R26, R28, R29, R52, R53). With filter
distance 0 the edge is accepted at once, at the change of the input (R25). -/
def Obligations.TrailingEdgeIsReported : Prop :=
  (∀ (s : State) (l : LaneId) (pos : Pos),
     s.acceptTrailing l none pos = { s with lanes := upd s.lanes l (fun x => { x with detector := .clear }) }
     ∧ ∀ i, s.TagsSound → i ∈ s.queue.items →
         let c := s.lanes[l].config
         let length := pos - i.leading
         let long : Bool := c.maxLength != 0 && decide (c.maxLength.toNat ≤ length.toNat) && !i.long
         let short : Bool := decide (length.toNat < c.minLength.toNat)
         let forces : Bool := c.sizePolicy == .reject && !i.final
         let seen : Item :=
           { i with trailing := some pos, length := some length, long := i.long || long, short := i.short || short }
         let record : Item :=
           if forces && short then { seen with verdict := .reject, source := .forced, reason := 0xF0 }
           else if forces && long then { seen with verdict := .reject, source := .forced, reason := 0xF1 }
           else seen
         let cleared : State :=
           { s with
             queue := { s.queue with items := s.queue.items.map (fun x => if x.tag = i.tag then record else x) }
             list := (s.rekey i.tag pos).list
             lanes := upd s.lanes l (fun x =>
               { x with
                 detector := .clear
                 counters := { x.counters with forcedRejects := x.counters.forcedRejects
                   + (if forces && long then 1 else 0) + (if forces && short then 1 else 0) } }) }
         s.acceptTrailing l (some i.tag) pos
           = State.arrive
               (if long then cleared.arrive (s.recordNow .itemJam (BitVec.ofNat 4 l.val) i.tag 0 0) else cleared)
               (s.recordNow .itemLength (BitVec.ofNat 4 l.val) i.tag (lo length) (hi length)))
  ∧
  (∀ (s : State) (l : LaneId) (level : Level) (link : Option Tag) (candidate : Option Pos), s.Quiet →
     s.blanked = false → s.pins.det[l] ≠ level → level = s.lanes[l].config.activeLow → s.lanes[l].config.filter = 0 →
     s.lanes[l].detector = .occupied link candidate →
     let sampled := { s with pins := { s.pins with det := upd s.pins.det l (fun _ => level) } }
     exec (.detInputChange l level) s = .next (sampled.acceptTrailing l link s.position.tracking))

/-! ### Operating control -/

/-- Halt entry, the taking of a halt request in TRACKING: the cause and its bit, HALTED, the frozen firing point, the
watches discarded, the held levels, HALTED queued and the HALT status bit; every other piece of state is kept; the
detectors are blanked, and a line is active just when it holds an active level (R12, R112, R114, R133, R141). A halt
request in HALTED adds the bit of its cause to the mask and does nothing else; in SETUP it is not acted on (R140). The
requests on their way when a command has had its effect are taken one after another, in some order, all of them when no
command waits; one may stay on its way only while a command waits, and in SETUP none does. A command taken while requests
are on their way has the effect it has without them, and they arrive after it (R143; that a request may wait as long as
commands do is the model's reading, notes/assumptions/10.md). -/
def Obligations.HaltRequestsByState : Prop :=
  (∀ (s : State) (c : Cause), s.control.op = .tracking →
     let t := s.takeHalt c
     let mask := s.control.causeMask ||| c.bit
     let queued := s.arrive (s.recordNow .halted 0 0 c.code (mask.zeroExtend 16))
     t.control = { s.control with op := .halted, firstCause := some c, causeMask := mask }
     ∧ t.list = { s.list with firingPoint := s.position.tracking }
     ∧ t.events = queued.events
     ∧ t.host = { s.host with intStatus := queued.host.intStatus ||| 4 }
     ∧ (∀ n : StationId, t.stations[n] = { s.stations[n] with watches := [] })
     ∧ (∀ o : OutputId, t.outputs[o] = { s.outputs[o] with
         held := if s.outputs[o].fault = .hold then some (decide (0 < s.holders o)) else none })
     ∧ (∀ o : OutputId, t.lineActive o = true ↔ s.outputs[o].fault = .hold ∧ 0 < s.holders o)
     ∧ t.blanked = true
     ∧ t = { s with control := t.control, list := t.list, events := t.events, host := t.host, stations := t.stations,
                    outputs := t.outputs })
  ∧
  (∀ (s : State) (c : Cause),
     (s.control.op = .halted →
       s.takeHalt c = { s with control := { s.control with causeMask := s.control.causeMask ||| c.bit } })
     ∧ (s.control.op = .setup → s.takeHalt c = s))
  ∧
  (∀ s : State, ∃ (taken left : List Cause) (n : Nat), (taken ++ left).Perm s.control.requests
     ∧ s.arriveHalts
         = { taken.foldl State.takeHalt { s with control := { s.control with requests := left } } with choices := n }
     ∧ (s.pending = [] ∨ s.control.op = .setup → left = []) ∧ (s.control.requests = [] → n = s.choices))
  ∧
  (∀ (c : Instr) (s : State), isResetCommand c = false → s.running = true → s.control.op ≠ .setup →
     let carrying (t : State) (requests : List Cause) : State := { t with control := { t.control with requests := requests } }
     ∃ effect : State, exec c (carrying s []) = .next effect.arriveHalts
       ∧ exec c s = .next (carrying effect (s.control.requests ++ effect.control.requests)).arriveHalts)

/-- The line level of an output: forced ACTIVE in SETUP; its holder count in TRACKING; inactive in HALTED with fault
action OFF, the held level with HOLD; and the pin shows it through the polarity (R109, R112). -/
def Obligations.LineLevelFollowsTheState : Prop :=
  ∀ (s : State) (o : OutputId),
    (s.control.op = .setup → (s.lineActive o = true ↔ s.outputs[o].forced = .active))
    ∧ (s.control.op = .tracking → (s.lineActive o = true ↔ 0 < s.holders o))
    ∧ (s.control.op = .halted → s.outputs[o].fault = .off → s.lineActive o = false)
    ∧ (∀ level, s.control.op = .halted → s.outputs[o].fault = .hold → s.outputs[o].held = some level →
        s.lineActive o = level)
    ∧ (s.running = true → s.outputs[o].activeLow = false → s.outPin o = some (s.lineActive o))
    ∧ (s.running = true → s.outputs[o].activeLow = true → s.outPin o = some (!s.lineActive o))

/-- HLD: at the sample in which it becomes asserted it is shown, and in TRACKING it is a halt request with cause
HOLD_INPUT, in HALTED it adds that bit, in SETUP it does nothing more; a release is shown and does nothing more
(R144). -/
def Obligations.HoldInputHaltsTheLine : Prop :=
  ∀ s : State, s.Quiet →
    let shown (level : Level) : State :=
      { s with pins := { s.pins with hld := level }, control := { s.control with hldAsserted := !level } }
    exec .hldRelease s = .next (shown true)
    ∧ (s.control.hldAsserted = false → s.control.op = .setup → exec .hldAssert s = .next (shown false))
    ∧ (s.control.hldAsserted = false → s.control.op = .tracking →
        exec .hldAssert s = .next ((shown false).takeHalt .holdInput))
    ∧ (s.control.hldAsserted = false → s.control.op = .halted →
        exec .hldAssert s = .next
          { shown false with
            control := { s.control with hldAsserted := true, causeMask := s.control.causeMask ||| 0b000001 } })

/-! ### The event queue -/

/-- An arrival at the event queue: nothing for a masked kind; with two or more free slots the record at the tail, EVT
when the count comes to the threshold; with one, an EVENTS_LOST record of count 1 and LOST; with none, the count of
the tail record one higher, up to FFFFFFFFh, and LOST (R154, R155, R156, R160). -/
def Obligations.EventArrivesByFreeSlots : Prop :=
  ∀ (s : State) (r : EventRecord),
    let n := s.events.records.length
    let masked := r.kind.code ≤ 9 ∧ s.events.mask.getLsbD (r.kind.code - 1) = true
    let evt : BitVec 4 := if n + 1 = s.events.threshold.toNat then 2 else 0
    let with_ (records : List EventRecord) (bits : BitVec 4) : State :=
      { s with events := { s.events with records := records }
               host := { s.host with intStatus := s.host.intStatus ||| bits } }
    let lost : EventRecord :=
      { kind := .eventsLost, unit := 0, low := 0, tag := 0, position := s.position.tracking, auxA := 1, auxB := 0 }
    (masked → s.arrive r = s)
    ∧ (¬ masked → n + 2 ≤ 32 → s.arrive r = with_ (s.events.records ++ [r]) evt)
    ∧ (¬ masked → n = 31 → s.arrive r = with_ (s.events.records ++ [lost]) (evt ||| 8))
    ∧ (∀ older tail, ¬ masked → n = 32 → s.events.records = older ++ [tail] → tail.kind = .eventsLost →
        (joinWords tail.auxA tail.auxB = 0xFFFFFFFF → s.arrive r = with_ s.events.records 8)
        ∧ (joinWords tail.auxA tail.auxB ≠ 0xFFFFFFFF →
            let count := joinWords tail.auxA tail.auxB + 1
            s.arrive r = with_ (older ++ [{ tail with auxA := lo count, auxB := hi count }]) 8))

/-- Reads of EVENT_DATA: a read before the last word of the head record returns the word the index names and moves
the index on; the read of the last removes the record; an empty queue reads 0 and changes nothing (R157). Six reads
of EVENT_DATA from a rewound index deliver the head record, w0 first, and remove it; nothing else of the part changes
(R157, R158, layout of section 10.4). -/
def Obligations.EventDataReads : Prop :=
  (∀ s : State, s.Quiet →
     (s.events.records = [] → exec .eventDataRead s = .next { s with readData := 0 })
     ∧ ∀ r rest, s.events.records = r :: rest →
         let w0 : Word := BitVec.ofNat 16 (256 * r.kind.code + 16 * r.unit.toNat + r.low.toNat)
         let word := #v[w0, r.tag, lo r.position, hi r.position, r.auxA, r.auxB][s.events.index]
         (s.events.index ≠ 5 → exec .eventDataRead s = .next
           { s with events := { s.events with index := s.events.index + 1 }, readData := word })
         ∧ (s.events.index = 5 → exec .eventDataRead s = .next
           { s with events := { s.events with records := rest, index := 0 }, readData := word }))
  ∧
  (∀ (s : State) (r : EventRecord) (rest : List EventRecord) (value : Word), s.Quiet →
     s.events.records = r :: rest →
     exec (.eventDataWrite value) s = .next { s with events := { s.events with index := 0 } }
     ∧ (s.events.index = 0 →
         s.eventReads 6
           = [BitVec.ofNat 16 (256 * r.kind.code + 16 * r.unit.toNat + r.low.toNat), r.tag, lo r.position, hi r.position,
              r.auxA, r.auxB]
         ∧ s.after (List.replicate 6 .eventDataRead)
           = { s with events := { s.events with records := rest }, readData := r.auxB }))

/-! ### The register window -/

/-- A write to CMD: READY accepts any code, copying the parameters, recording the low byte, setting BUSY and clearing
CMD_OVERRUN, and CMD reads the code with bit 15; BUSY ignores it but for CMD_OVERRUN (R171, R173). CMD_OVERRUN moves
at CMD writes and resets alone, and so does the parameter copy (R171, R173). -/
def Obligations.CommandWrite : Prop :=
  (∀ (s : State) (value : Word), s.Quiet →
     (s.host.busy = false → ∃ t, exec (.cmdWrite value) s = .next t
       ∧ t = { s with host := { s.host with busy := true, lastCode := value.extractLsb' 0 8, copy := s.host.params,
                                            overrun := false } }
       ∧ t.registerRead 5 = 0x8000 + (value.extractLsb' 0 8).zeroExtend 16 ∧ t.statusWord.getLsbD 2 = true)
     ∧ (s.host.busy = true → ∃ t, exec (.cmdWrite value) s = .next t
       ∧ t = { s with host := { s.host with overrun := true } } ∧ t.statusWord.getLsbD 3 = true))
  ∧
  (∀ (c : Instr) (s t : State), isResetCommand c = false → (∀ value, c ≠ .cmdWrite value) →
     (∀ value, c ≠ .registerWrite 5 value) → exec c s = .next t →
     t.host.overrun = s.host.overrun ∧ t.host.copy = s.host.copy)

/-- A write to PARAM0 to PARAM7 (the registers 8 to 15) is taken at once, in every command state, and only into that
register; a write to a read-only or unused register is ignored (R167, R174). Writes to the status and interrupt
registers: STATUS clears POWER_ON by bit 5, INT_STATUS clears the bits written as 1, INT_ENABLE takes bits 3 to 0,
and INT_N is low just when a bit is set in both (R150, R161, R162, R168). A write to EVENT_THRESHOLD holds 0 as 1 and
any value above 32 as 32, and sets EVT when the queue is not empty and its count is not below the threshold then held
(R160, R161). -/
def Obligations.RegisterWrites : Prop :=
  (∀ (s : State) (value : Word), s.Quiet →
     (∀ k : Fin 8, exec (.registerWrite (BitVec.ofNat 5 (8 + k.val)) value) s = .next
       { s with host := { s.host with params := upd s.host.params k (fun _ => value) } })
     ∧ ∀ r : BitVec 5, r.toNat ∈ [0, 1, 6, 7, 16, 17, 18, 19, 20, 21, 22, 25, 26, 27, 28, 29, 30, 31] →
         exec (.registerWrite r value) s = .next s)
  ∧
  (∀ (s : State) (value : Word), s.Quiet →
     exec (.statusWrite value) s
       = .next { s with host := { s.host with powerOn := s.host.powerOn && !value.getLsbD 5 } }
     ∧ (∃ t, exec (.intStatusWrite value) s = .next t
         ∧ (∀ k, k < 4 → t.host.intStatus.getLsbD k = (s.host.intStatus.getLsbD k && !value.getLsbD k))
         ∧ t = { s with host := { s.host with intStatus := t.host.intStatus } })
     ∧ (∃ t, exec (.intEnableWrite value) s = .next t
         ∧ (∀ k, k < 4 → t.host.intEnable.getLsbD k = value.getLsbD k)
         ∧ t = { s with host := { s.host with intEnable := t.host.intEnable } })
     ∧ (s.intNLow = true ↔ ∃ k, k < 4 ∧ s.host.intStatus.getLsbD k = true ∧ s.host.intEnable.getLsbD k = true))
  ∧
  (∀ (s : State) (value : Word), s.Quiet →
     let held : Nat := if value = 0 then 1 else min value.toNat 32
     let evt : BitVec 4 := if s.events.records ≠ [] ∧ held ≤ s.events.records.length then 2 else 0
     exec (.eventThresholdWrite value) s = .next
       { s with events := { s.events with threshold := BitVec.ofNat 6 held }
                host := { s.host with intStatus := s.host.intStatus ||| evt } })

/-- A read of POS_LOW returns the low half of the counter and latches its high half, so that POS_LOW and then
POS_HIGH give one counter value; TRACK_LOW and TRACK_HIGH likewise for the tracking position, and neither pair
latches the other (R13). What every other register reads outside reset: ID, REVISION, the fields of STATUS and of
HALT_CAUSE, INT_STATUS, INT_ENABLE, CMD, RESULT_CODE, PARAM0 to PARAM7, RESULT0 to RESULT5, EVENT_COUNT,
EVENT_THRESHOLD, the latched high halves, and 0 at the unused offsets; in reset every register reads 0 (R12, R159, R166
to R169, R171). -/
def Obligations.PositionReadsAreConsistent : Prop :=
  (∀ s : State, s.Quiet →
     (∃ t, exec .posLowRead s = .next t ∧ joinWords t.readData (t.registerRead 29) = s.position.counter
       ∧ t = { s with position := { s.position with posHigh := t.position.posHigh }, readData := t.readData })
     ∧ (∃ t, exec .trackLowRead s = .next t ∧ joinWords t.readData (t.registerRead 31) = s.position.tracking
       ∧ t = { s with position := { s.position with trackHigh := t.position.trackHigh }, readData := t.readData }))
  ∧
  (∀ s : State, s.running = false → ∀ r, s.registerRead r = 0)
  ∧
  (∀ s : State, s.running = true →
     let status := s.registerRead 2
     let cause := s.registerRead 7
     s.registerRead 0 = 0x4716 ∧ s.registerRead 1 = 0x0003
     ∧ (status.extractLsb' 0 2 = match s.control.op with | .setup => 0 | .tracking => 1 | .halted => 2)
     ∧ status.getLsbD 2 = s.host.busy ∧ status.getLsbD 3 = s.host.overrun
     ∧ status.getLsbD 4 = s.control.hldAsserted ∧ status.getLsbD 5 = s.host.powerOn
     ∧ (status.getLsbD 6 = true ↔
         s.control.op = .halted ∨ (s.control.op = .tracking ∧ s.position.counter ≠ s.position.tracking))
     ∧ status.getLsbD 7 = false
     ∧ (∀ l : LaneId, status.extractLsb' (8 + 2 * l.val) 2 = match s.lanes[l].detector with
         | .off => 0 | .waitClear => 1 | .clear => 2 | .filtering _ => 2 | .occupied _ _ => 3)
     ∧ (cause.extractLsb' 0 4 = match s.control.firstCause with
         | none => 0 | some .holdInput => 1 | some .overReverse => 2 | some .encoder => 3 | some .queueFull => 4
         | some .stationFail => 5 | some .host => 6)
     ∧ cause.extractLsb' 4 4 = 0 ∧ cause.extractLsb' 8 6 = s.control.causeMask ∧ cause.extractLsb' 14 2 = 0
     ∧ s.registerRead 3 = s.host.intStatus.zeroExtend 16 ∧ s.registerRead 4 = s.host.intEnable.zeroExtend 16
     ∧ (s.registerRead 5).getLsbD 15 = s.host.busy ∧ (s.registerRead 5).extractLsb' 0 8 = s.host.lastCode
     ∧ (s.registerRead 5).extractLsb' 8 7 = 0
     ∧ (s.registerRead 6 = match s.host.resultCode with
         | .done => 0 | .badCommand => 1 | .badState => 2 | .badParam => 3 | .notFound => 4 | .tooLate => 5
         | .locked => 6 | .configError => 7 | .haltActive => 8)
     ∧ (∀ k : Fin 8, s.registerRead (BitVec.ofNat 5 (8 + k.val)) = s.host.params[k])
     ∧ (∀ k : Fin 6, s.registerRead (BitVec.ofNat 5 (16 + k.val)) = s.host.results[k])
     ∧ (s.EventsSound → (s.registerRead 22).toNat = s.events.records.length)
     ∧ s.registerRead 23 = s.events.threshold.zeroExtend 16
     ∧ s.registerRead 25 = 0 ∧ s.registerRead 26 = 0 ∧ s.registerRead 27 = 0
     ∧ s.registerRead 29 = s.position.posHigh ∧ s.registerRead 31 = s.position.trackHigh)

/-- Refusals that come before a command's own conditions: an unknown code ends with BAD_COMMAND, and a command in an
operating state that does not allow it with BAD_STATE; nothing but the result registers, the command state and the
CMD bit changes, and the result words are 0 (R172, R177). -/
def Obligations.RefusalsChangeNothing : Prop :=
  ∀ s : State,
    (∀ code, s.Awaits code →
      code.toNat ∉ [0x01, 0x02, 0x03, 0x04, 0x05, 0x06, 0x07, 0x08, 0x09, 0x10, 0x11, 0x12, 0x13, 0x20, 0x21, 0x22, 0x23,
        0x24, 0x25, 0x2F] →
      exec .unknownCommand s = .next (s.completed .badCommand noWords))
    ∧ (∀ c code, s.Awaits code → s.control.op ≠ .setup →
        (c, code) ∈ [(Instr.setGlobal, 0x01#8), (.setLane, 0x03), (.setStation, 0x05), (.setOutput, 0x07),
          (.forceOutput, 0x08), (.presetPosition, 0x09), (.start, 0x10)] →
        exec c s = .next (s.completed .badState noWords))
    ∧ (∀ c code, s.Awaits code → s.control.op = .setup →
        (c, code) ∈ [(Instr.stop, 0x11#8), (.halt, 0x12), (.resume, 0x13), (.decideItem, 0x20), (.cancel, 0x21),
          (.queryItem, 0x22)] →
        exec c s = .next (s.completed .badState noWords))
    ∧ (s.Awaits 0x12 → s.control.op = .halted → exec .halt s = .next (s.completed .badState noWords))
    ∧ (s.Awaits 0x13 → s.control.op = .tracking → exec .resume s = .next (s.completed .badState noWords))

/-- SET_GLOBAL in SETUP: BAD_PARAM, changing nothing, out of range; else every setting takes its new value, a changed
encoder mode takes the present pair as the reference, and a changed TICK_DIV starts a new tick (R3, R178).
GET_GLOBAL, in every operating state: TICK_DIV, the PARAM1 word of SET_GLOBAL, the tolerance, the mask and the
threshold, and nothing else changes (R179). -/
def Obligations.GlobalSettings : Prop :=
  (∀ s : State, s.Awaits 0x01 → s.control.op = .setup →
     let p := s.host.copy
     let mode : EncoderMode := if p[1].extractLsb' 0 2 = 0 then .quad else .pulseDir
     (¬ GlobalInRange p → exec .setGlobal s = .next (s.completed .badParam noWords))
     ∧ (GlobalInRange p → exec .setGlobal s = .next
         (State.completed
           { s with
             globals :=
               { tickDiv := p[0].extractLsb' 0 8
                 tickPhase := if s.globals.tickDiv = p[0].extractLsb' 0 8 then s.globals.tickPhase else 0
                 haltOnFail := p[1].getLsbD 3 }
             position :=
               { s.position with
                 mode := mode, invert := p[1].getLsbD 2, tolerance := p[2]
                 refA := if s.position.mode = mode then s.position.refA else s.pins.encA
                 refB := if s.position.mode = mode then s.position.refB else s.pins.encB }
             events := { s.events with mask := p[3].extractLsb' 0 9 } }
           .done noWords)))
  ∧
  (∀ s : State, s.Awaits 0x02 →
     ∃ r : Vector Word 6, exec .getGlobal s = .next (s.completed .done r)
       ∧ r[0] = s.globals.tickDiv.zeroExtend 16 ∧ r[2] = s.position.tolerance
       ∧ r[3] = s.events.mask.zeroExtend 16 ∧ r[4] = s.events.threshold.zeroExtend 16 ∧ r[5] = 0
       ∧ (r[1].extractLsb' 0 2 = 0 ↔ s.position.mode = .quad) ∧ (r[1].extractLsb' 0 2 = 1 ↔ s.position.mode = .pulseDir)
       ∧ r[1].getLsbD 2 = s.position.invert ∧ r[1].getLsbD 3 = s.globals.haltOnFail ∧ r[1].extractLsb' 4 12 = 0)

/-- SET_LANE in SETUP: with every value in range the lane takes the configuration its words say, and keeps its
counters, detector and previous leading position; else BAD_PARAM and nothing changes; outside SETUP, BAD_STATE (R16).
GET_LANE, in every operating state: part 0 and part 1 of the lane's configuration and detector in the places of
section 10.7, BAD_PARAM for a lane above 3 or a part above 1, and nothing else changes (R17). -/
def Obligations.LaneCommands : Prop :=
  (∀ s : State, s.Awaits 0x03 →
     let p := s.host.copy
     (s.control.op ≠ .setup → exec .setLane s = .next (s.completed .badState noWords))
     ∧ (s.control.op = .setup → ¬ LaneInRange p → exec .setLane s = .next (s.completed .badParam noWords))
     ∧ (s.control.op = .setup → LaneInRange p → ∃ (l : LaneId) (c : LaneConfig),
         l.val = (p[1].extractLsb' 12 4).toNat ∧ c.Says p
         ∧ exec .setLane s = .next
             (State.completed { s with lanes := upd s.lanes l (fun x => { x with config := c }) } .done noWords)))
  ∧
  (∀ s : State, s.Awaits 0x04 →
     let p := s.host.copy
     (3 < p[0].toNat ∨ 1 < p[1].toNat → exec .getLane s = .next (s.completed .badParam noWords))
     ∧ (∀ l : LaneId, l.val = p[0].toNat → p[1] = 0 →
         let x := s.lanes[l].config
         ∃ r : Vector Word 6, exec .getLane s = .next (s.completed .done r)
           ∧ r[0].getLsbD 0 = x.enabled ∧ r[0].getLsbD 1 = x.activeLow
           ∧ r[0].extractLsb' 2 2 = (if x.defaultVerdict = .pass then 1 else 2)
           ∧ (r[0].getLsbD 4 = true ↔ x.sizePolicy = .reject) ∧ (r[0].getLsbD 5 = true ↔ x.overflow = .halt)
           ∧ r[0].extractLsb' 6 2 = 0 ∧ (r[0].extractLsb' 8 4).toNat = x.defaultClass.val
           ∧ (r[0].extractLsb' 12 4).toNat = l.val
           ∧ r[1] = x.filter.zeroExtend 16 ∧ r[2] = x.minPitch ∧ r[3] = x.minLength
           ∧ joinWords r[4] r[5] = x.maxLength.zeroExtend 32)
     ∧ (∀ l : LaneId, l.val = p[0].toNat → p[1] = 1 →
         let x := s.lanes[l]
         ∃ r : Vector Word 6, exec .getLane s = .next (s.completed .done r)
           ∧ joinWords r[0] r[1] = x.config.decision.zeroExtend 32 ∧ joinWords r[2] r[3] = x.config.exit.zeroExtend 32
           ∧ (x.detector = .off → r[4] = 0) ∧ (x.detector = .waitClear → r[4] = 1) ∧ (x.detector = .clear → r[4] = 2)
           ∧ (∀ capture, x.detector = .filtering capture → r[4] = 3)
           ∧ (∀ link candidate, x.detector = .occupied link candidate → r[4] = 4)
           ∧ (∀ tag candidate, x.detector = .occupied (some tag) candidate → r[5] = tag)
           ∧ ((∀ tag candidate, x.detector ≠ .occupied (some tag) candidate) → r[5] = 0)))

/-- SET_STATION in SETUP: with every value in range the station takes the configuration its words say, and keeps its
runtime state, pulse and counts; else BAD_PARAM and nothing changes; outside SETUP, BAD_STATE (R87). GET_STATION, in
every operating state: part 0 and part 1 of the station in the places of section 10.7, BAD_PARAM for a station above
15 or a part above 1, and nothing else changes (R88). -/
def Obligations.StationCommands : Prop :=
  (∀ s : State, s.Awaits 0x05 →
     let p := s.host.copy
     (s.control.op ≠ .setup → exec .setStation s = .next (s.completed .badState noWords))
     ∧ (s.control.op = .setup → ¬ StationInRange p → exec .setStation s = .next (s.completed .badParam noWords))
     ∧ (s.control.op = .setup → StationInRange p → ∃ (n : StationId) (c : StationConfig),
         n.val = p[0].toNat ∧ c.Says p
         ∧ exec .setStation s = .next
             (State.completed { s with stations := upd s.stations n (fun x => { x with config := c }) } .done noWords)))
  ∧
  (∀ s : State, s.Awaits 0x06 →
     let p := s.host.copy
     (15 < p[0].toNat ∨ 1 < p[1].toNat → exec .getStation s = .next (s.completed .badParam noWords))
     ∧ (∀ n : StationId, n.val = p[0].toNat → p[1] = 0 →
         let c := s.stations[n].config
         ∃ r : Vector Word 6, exec .getStation s = .next (s.completed .done r)
           ∧ r[0].getLsbD 0 = c.enabled ∧ (r[0].extractLsb' 1 2).toNat = c.selector.code
           ∧ (r[0].extractLsb' 3 2).toNat = c.mode.code ∧ (r[0].extractLsb' 5 3).toNat = confirmCode c.confirm
           ∧ r[0].getLsbD 8 = c.falling ∧ r[0].extractLsb' 9 7 = 0
           ∧ (r[1].extractLsb' 0 2).toNat = c.lane.val ∧ (r[1].extractLsb' 8 4).toNat = c.output.val
           ∧ joinWords r[2] r[3] = c.offset.zeroExtend 32 ∧ r[4] = c.classMask ∧ r[5] = 0)
     ∧ (∀ n : StationId, n.val = p[0].toNat → p[1] = 1 →
         let x := s.stations[n]
         ∃ r : Vector Word 6, exec .getStation s = .next (s.completed .done r)
           ∧ r[0] = x.config.pulseWord ∧ r[1] = x.config.capWord ∧ r[2] = x.config.window
           ∧ r[3].extractLsb' 0 4 = x.config.missLimit
           ∧ (r[3].extractLsb' 4 2).toNat = (match x.runtime with | .disabled => 0 | .enabled => 1 | .failed => 2)
           ∧ r[3].getLsbD 8 = x.pulse.isSome ∧ r[4] = x.misses.zeroExtend 16 ∧ r[5] = x.strays))

/-- SET_OUTPUT in SETUP: polarity and fault action of one line, with what they were, the forced state and the level
in the result words; BAD_PARAM and nothing changed out of range (R108). FORCE_OUTPUT in SETUP: the forced state of
one line, with its code before and the lines forced ACTIVE, forced INACTIVE and active after in the result words, bit
n for OUTn; BAD_PARAM and nothing changed out of range (R118). -/
def Obligations.OutputCommands : Prop :=
  (∀ s : State, s.Awaits 0x07 →
     let p := s.host.copy
     (s.control.op ≠ .setup → exec .setOutput s = .next (s.completed .badState noWords))
     ∧ (s.control.op = .setup → 15 < p[0].toNat ∨ 1 < p[1].toNat ∨ 1 < p[2].toNat →
         exec .setOutput s = .next (s.completed .badParam noWords))
     ∧ (∀ o : OutputId, s.control.op = .setup → o.val = p[0].toNat → p[1].toNat ≤ 1 → p[2].toNat ≤ 1 →
         let x := s.outputs[o]
         exec .setOutput s = .next
           (State.completed
             { s with outputs := upd s.outputs o (fun y =>
               { y with activeLow := decide (p[1] = 1), fault := if p[2] = 1 then .hold else .off }) }
             .done
             #v[if x.activeLow then 1 else 0, if x.fault = .hold then 1 else 0,
                match x.forced with | .none => 0 | .inactive => 1 | .active => 2,
                if s.lineActive o then 1 else 0, 0, 0])))
  ∧
  (∀ s : State, s.Awaits 0x08 →
     let p := s.host.copy
     (s.control.op ≠ .setup → exec .forceOutput s = .next (s.completed .badState noWords))
     ∧ (s.control.op = .setup → 15 < p[0].toNat ∨ 2 < p[1].toNat →
         exec .forceOutput s = .next (s.completed .badParam noWords))
     ∧ (∀ o : OutputId, s.control.op = .setup → o.val = p[0].toNat → p[1].toNat ≤ 2 →
         let forced : Forced := if p[1] = 0 then .none else if p[1] = 1 then .inactive else .active
         let t : State := { s with outputs := upd s.outputs o (fun x => { x with forced := forced }) }
         ∃ r : Vector Word 6, exec .forceOutput s = .next (t.completed .done r)
           ∧ r[0] = (match s.outputs[o].forced with | .none => 0 | .inactive => 1 | .active => 2)
           ∧ (∀ n : OutputId, r[1].getLsbD n.val = decide (t.outputs[n].forced = .active))
           ∧ (∀ n : OutputId, r[2].getLsbD n.val = decide (t.outputs[n].forced = .inactive))
           ∧ (∀ n : OutputId, r[3].getLsbD n.val = t.lineActive n)
           ∧ r[4] = 0 ∧ r[5] = 0))

/-- PRESET_POSITION in SETUP sets the counter and the tracking position, and with them the firing point, to its
value, whatever it is, and leaves the latches; outside SETUP it ends with BAD_STATE and neither position changes (R6,
R85). -/
def Obligations.PresetSetsBothPositions : Prop :=
  ∀ s : State, s.Awaits 0x09 →
    let value : Pos := s.host.copy[1] ++ s.host.copy[0]
    (s.control.op = .setup → exec .presetPosition s = .next
      (State.completed
        { s with position := { s.position with counter := value, tracking := value }
                 list := { s.list with firingPoint := value } }
        .done noWords))
    ∧ (s.control.op ≠ .setup → exec .presetPosition s = .next (s.completed .badState noWords))

/-- START outside SETUP ends with BAD_STATE and nothing changes. START in SETUP is refused, with nothing changed, by HLD
asserted before any check, and else by the first configuration check that fails, checks in number order and units
ascending, with its number and unit (R105, R106). START in SETUP with HLD released and every check passed enters
TRACKING: causes cleared, positions together, the stations in service as configured with miss count 0, forced states
released, each enabled lane at its first sample; the result words name the stations in ENABLED and the lanes in
WAIT_CLEAR (R7, R18, R90, R119, R137). -/
def Obligations.StartCommand : Prop :=
  (∀ s : State, s.Awaits 0x10 → s.control.op ≠ .setup → exec .start s = .next (s.completed .badState noWords))
  ∧
  (∀ s : State, s.Awaits 0x10 → s.control.op = .setup →
     (s.control.hldAsserted = true → exec .start s = .next (s.completed .haltActive noWords))
     ∧ ∀ check unit, s.control.hldAsserted = false → FirstFailure s.startFails check unit →
         exec .start s = .next
           (s.completed .configError #v[BitVec.ofNat 16 check, BitVec.ofNat 16 unit, 0, 0, 0, 0]))
  ∧
  (∀ s : State, s.Awaits 0x10 → s.control.op = .setup → s.control.hldAsserted = false →
     (∀ check unit, ¬ s.startFails check unit) →
     ∃ (t : State) (r : Vector Word 6), exec .start s = .next (t.completed .done r)
       ∧ t.control = { s.control with op := .tracking, firstCause := none, causeMask := 0 }
       ∧ t.position = { s.position with tracking := s.position.counter }
       ∧ t.list = { s.list with firingPoint := s.position.counter }
       ∧ (∀ l : LaneId, t.lanes[l] = { s.lanes[l] with
           previous := none
           detector := if s.lanes[l].config.enabled then (if s.inputActive l then .waitClear else .clear) else .off })
       ∧ (∀ n : StationId, t.stations[n] = { s.stations[n] with
           misses := 0
           runtime := if s.stations[n].config.enabled then .enabled else .disabled })
       ∧ (∀ o : OutputId, t.outputs[o] = { s.outputs[o] with forced := .none })
       ∧ t = { s with control := t.control, position := t.position, list := t.list, lanes := t.lanes,
                      stations := t.stations, outputs := t.outputs }
       ∧ (∀ n : StationId, r[0].getLsbD n.val = s.stations[n].config.enabled)
       ∧ (∀ l : LaneId, r[1].getLsbD l.val = (s.lanes[l].config.enabled && s.inputActive l))
       ∧ r[1].toNat < 16 ∧ r[2] = 0 ∧ r[3] = 0 ∧ r[4] = 0 ∧ r[5] = 0)

/-- STOP in TRACKING or HALTED returns the part to SETUP with nothing fired, counted or reported: the queue and the
list empty, stations DISABLED without pulse or watch, lines released, detectors OFF, the tracking position at the
counter when they differ; all else is kept, the halt record among it (R9, R138). -/
def Obligations.StopReturnsToSetup : Prop :=
  ∀ s : State, s.Awaits 0x11 →
    (s.control.op = .setup → exec .stop s = .next (s.completed .badState noWords))
    ∧ (s.control.op ≠ .setup →
        let tracking := if s.reverse = 0 then s.position.tracking else s.position.counter
        exec .stop s = .next
          (State.completed
            { s with
              position := { s.position with tracking := tracking }
              lanes := mapAll (fun x => { x with detector := .off, previous := none }) s.lanes
              queue := { s.queue with items := [] }
              list := { entries := [], firingPoint := tracking }
              stations := mapAll (fun x => { x with runtime := .disabled, pulse := none, watches := [] }) s.stations
              outputs := mapAll (fun x => { x with forced := .none, held := none }) s.outputs
              control := { s.control with op := .setup } }
            .done
            #v[if s.control.op = .tracking then 1 else 2, BitVec.ofNat 16 s.queue.items.length,
               BitVec.ofNat 16 s.list.entries.length, 0, 0, 0]))

/-- HALT: in TRACKING the halt entry with cause HOST, and then DONE with the result words 0; in SETUP and HALTED
BAD_STATE, and no bit is added (R139). -/
def Obligations.HaltCommandHalts : Prop :=
  ∀ s : State, s.Awaits 0x12 →
    (s.control.op = .tracking → exec .halt s = .next ((s.takeHalt .host).completed .done noWords))
    ∧ (s.control.op ≠ .tracking → exec .halt s = .next (s.completed .badState noWords))

/-- RESUME in HALTED with HLD released: the catch-up takes the reached entries in list order; the record of the halt is
cleared, RESUMED is queued with the number of entries taken and of ON entries missed, and the part enters TRACKING with no
held level and its firing point at the tracking position. Without re-travel every lane then re-samples, one after another,
and the halt requests this raises are taken within the completion; where every lane would stay as it is, no more happens.
In re-travel no lane re-samples, and the part halts again at once when the reverse amount exceeds the tolerance. With HLD
asserted RESUME ends with HALT_ACTIVE (R11, R31, R82, R84, R146). That the requests raised by the re-sampling are taken
only after all four lanes have re-sampled is the model's choice (notes/assumptions/10.md). -/
def Obligations.ResumeEntersTracking : Prop :=
  ∀ s : State, s.Awaits 0x13 → s.control.op = .halted →
    let taken := BitVec.ofNat 16 (s.list.entries.countP (fun e => e.reached))
    let missed := BitVec.ofNat 16 (s.list.entries.countP (fun e => e.reached && e.isOn))
    let running := State.arrive
      { s.caughtUp with
        control := { s.control with op := .tracking, firstCause := none, causeMask := 0 }
        outputs := mapAll (fun x => { x with held := none }) s.outputs }
      (s.recordNow .resumed 0 0 taken missed)
    (s.control.hldAsserted = true → exec .resume s = .next (s.completed .haltActive noWords))
    ∧ (s.control.hldAsserted = false →
        (s.reverse = 0 → (∀ l, s.LaneSettled l) →
          exec .resume s = .next (running.completed .done #v[taken, missed, 1, 0, 0, 0]))
        ∧ (s.reverse = 0 → ∃ (order : List LaneId) (n : Nat), order.Perm [0, 1, 2, 3] ∧
            let sampled := State.settleHalts { order.foldl State.laneResample running with choices := n }
            exec .resume s = .next (sampled.completed .done #v[taken, missed, sampled.control.op.code, 0, 0, 0]))
        ∧ (s.reverse ≠ 0 → s.reverse.toNat ≤ s.position.tolerance.toNat →
            exec .resume s = .next (running.completed .done #v[taken, missed, 1, 0, 0, 0]))
        ∧ (s.position.tolerance.toNat < s.reverse.toNat →
            exec .resume s
              = .next ((running.takeHalt .overReverse).completed .done #v[taken, missed, 2, 0, 0, 0])))

/-- RESUME in HALTED with HLD released: the catch-up takes every reached entry, and its two numbers are the counts of
the reached entries and of the reached ON entries; none is left, and the part is in TRACKING or halted again (R82,
R84, R146). An entry taken in the catch-up: an ON entry sets the item's MISSED flag and queues ACTION_MISSED, and does
nothing else; a DEADLINE and a RETIRE entry are handed to the tracking queue as in a firing, and an OFF entry only leaves
the list, and one holder of its station's line with it (R72, R73, R82, R83). -/
def Obligations.ResumeCatchesUp : Prop :=
  (∀ s : State, s.Awaits 0x13 → s.control.op = .halted → s.control.hldAsserted = false →
     ∃ t, exec .resume s = .next t
       ∧ (∀ e ∈ t.list.entries, e.reached = false)
       ∧ t.host.busy = false ∧ t.host.resultCode = .done
       ∧ t.host.results[0] = BitVec.ofNat 16 (s.list.entries.countP (fun e => e.reached))
       ∧ t.host.results[1] = BitVec.ofNat 16 (s.list.entries.countP (fun e => e.reached && e.isOn))
       ∧ (t.control.op = .tracking ∧ t.host.results[2] = 1 ∨ t.control.op = .halted ∧ t.host.results[2] = 2)
       ∧ t.position = s.position ∧ t.list.firingPoint = s.position.tracking)
  ∧
  (∀ (s : State) (e : Entry),
     (∀ n, e.kind = .on n → s.catchEntry e = State.arrive
       { s with queue := { s.queue with items := s.queue.items.map (fun i =>
           if i.tag = e.tag then { i with missed := true } else i) } }
       (s.recordNow .actionMissed (BitVec.ofNat 4 n.val) e.tag 0 0))
     ∧ (e.kind = .deadline → s.catchEntry e = s.fireDeadline e.tag)
     ∧ (e.kind = .retire → s.catchEntry e = s.retireItem e.tag)
     ∧ ∀ n r, e.kind = .off n r → s.catchEntry e = s
         ∧ ∀ before after, s.list.entries = before ++ e :: after →
             let t := { s with list := { s.list with entries := before ++ after } }
             s.holders s.stations[n].config.output = t.holders s.stations[n].config.output + 1
               ∧ ∀ o, o ≠ s.stations[n].config.output → s.holders o = t.holders o)

/-! ### The commands on items, stations and counts -/

/-- DECIDE outside SETUP: BAD_PARAM out of range; NOT_FOUND, TOO_LATE and LOCKED in this order, with the words of the
verdict in the last two; else the item takes verdict, reason, source HOST and the class given, and the words tell
whether a host verdict was replaced, and the verdict before (R46, R47). -/
def Obligations.DecideSetsTheVerdict : Prop :=
  ∀ s : State, s.Awaits 0x20 →
    let p := s.host.copy
    let outcome := exec .decideItem s
    let standing (i : Item) : Vector Word 6 :=
      #v[BitVec.ofNat 16 i.verdict.code, BitVec.ofNat 16 i.source.code, i.reason.zeroExtend 16, 0, 0, 0]
    (s.control.op = .setup → outcome = .next (s.completed .badState noWords))
    ∧ (s.control.op ≠ .setup → ¬ DecideInRange p → outcome = .next (s.completed .badParam noWords))
    ∧ (s.control.op ≠ .setup → DecideInRange p → s.NamesNone p[0] p[1] →
        outcome = .next (s.completed .notFound noWords))
    ∧ ∀ i, s.control.op ≠ .setup → DecideInRange p → s.Names i p[0] p[1] →
        (i.final = true → outcome = .next (s.completed .tooLate (standing i)))
        ∧ (i.final = false → i.source = .forced → outcome = .next (s.completed .locked (standing i)))
        ∧ (i.final = false → i.source ≠ .forced → (s.queue.items.map Item.tag).Nodup → ∃ i' : Item,
            i' = { i with
                   verdict := if p[2] = 1 then .pass else .reject
                   reason := p[3].extractLsb' 0 8
                   source := .host
                   cls := i'.cls }
            ∧ (p[4] = 0xFF → i'.cls = i.cls) ∧ (p[4] ≠ 0xFF → i'.cls.val = p[4].toNat)
            ∧ outcome = .next
                (State.completed
                  { s with queue := { s.queue with items := s.queue.items.map (fun x =>
                      if x.tag = i.tag then i' else x) } }
                  .done
                  #v[if i.source = .host then 1 else 0, BitVec.ofNat 16 i.verdict.code, 0, 0, 0, 0]))

/-- CANCEL outside SETUP: BAD_PARAM for tag 0 or a lane above 3, NOT_FOUND without such an item; else the item's
RETIRE, DEADLINE and ON entries leave the list and its OFF entries lose their mark, the lane's link on it is made
absent, the cancelled counter rises, ITEM_CANCELLED is queued and the record is freed (R27, R55, R56, R75). -/
def Obligations.CancelRemovesTheItem : Prop :=
  ∀ s : State, s.Awaits 0x21 →
    let p := s.host.copy
    let outcome := exec .cancel s
    (s.control.op = .setup → outcome = .next (s.completed .badState noWords))
    ∧ (s.control.op ≠ .setup → p[0] = 0 ∨ 3 < p[1].toNat → outcome = .next (s.completed .badParam noWords))
    ∧ (s.control.op ≠ .setup → p[0] ≠ 0 → p[1].toNat ≤ 3 → s.NamesNone p[0] p[1] →
        outcome = .next (s.completed .notFound noWords))
    ∧ ∀ i, s.control.op ≠ .setup → p[0] ≠ 0 → s.Names i p[0] p[1] →
        let planned (e : Entry) : Bool := !e.isOff && e.tag == i.tag
        let left := (s.list.entries.filter (fun e => !planned e)).map (fun e => if e.tag = i.tag then e.unmark else e)
        outcome = .next
          (State.completed
            (State.arrive
              { s with
                queue := { s.queue with items := s.queue.items.filter (fun x => x.tag ≠ i.tag) }
                list := { s.list with entries := left }
                lanes := upd s.lanes i.lane (fun x =>
                  { x with
                    detector := if x.detector.link = some i.tag then x.detector.unlink else x.detector
                    counters := { x.counters with cancelled := x.counters.cancelled + 1 } }) }
              (s.recordNow .itemCancelled (BitVec.ofNat 4 i.lane.val) i.tag 0 0))
            .done
            #v[BitVec.ofNat 16 (s.list.entries.countP planned),
               BitVec.ofNat 16 (s.list.entries.countP (fun e => e.isOff && e.tag == i.tag)),
               BitVec.ofNat 16 i.verdict.code, BitVec.ofNat 16 i.source.code, 0, 0])

/-- QUERY_ITEM outside SETUP: the two parts of the live item named, FFFFFFFFh for an absent trailing position or
length; BAD_PARAM for tag 0, a lane above 3 or a part above 1; NOT_FOUND without such an item; nothing else changes
(R58). -/
def Obligations.QueryReadsTheItem : Prop :=
  ∀ s : State, s.Awaits 0x22 →
    let p := s.host.copy
    let outcome := exec .queryItem s
    (s.control.op = .setup → outcome = .next (s.completed .badState noWords))
    ∧ (s.control.op ≠ .setup → p[0] = 0 ∨ 3 < p[1].toNat ∨ 1 < p[2].toNat →
        outcome = .next (s.completed .badParam noWords))
    ∧ (s.control.op ≠ .setup → p[0] ≠ 0 → p[1].toNat ≤ 3 → p[2].toNat ≤ 1 → s.NamesNone p[0] p[1] →
        outcome = .next (s.completed .notFound noWords))
    ∧ (∀ i, s.control.op ≠ .setup → p[0] ≠ 0 → s.Names i p[0] p[1] → p[2] = 0 →
        ∃ r : Vector Word 6, outcome = .next (s.completed .done r) ∧ joinWords r[0] r[1] = i.leading
          ∧ joinWords r[2] r[3] = i.trailing.getD 0xFFFFFFFF ∧ joinWords r[4] r[5] = i.length.getD 0xFFFFFFFF)
    ∧ (∀ i, s.control.op ≠ .setup → p[0] ≠ 0 → s.Names i p[0] p[1] → p[2] = 1 →
        ∃ r : Vector Word 6, outcome = .next (s.completed .done r)
          ∧ r[0] = BitVec.ofNat 16 i.verdict.code ∧ r[1] = BitVec.ofNat 16 i.source.code
          ∧ r[2] = i.reason.zeroExtend 16 ∧ r[3] = BitVec.ofNat 16 i.cls.val ∧ r[5] = i.fired
          ∧ r[4].getLsbD 0 = i.short ∧ r[4].getLsbD 1 = i.long ∧ r[4].getLsbD 2 = i.noTrailing
          ∧ r[4].getLsbD 3 = i.missed ∧ r[4].getLsbD 4 = i.confirmFail ∧ r[4].getLsbD 5 = i.final
          ∧ r[4].getLsbD 6 = i.trailing.isSome ∧ r[4].extractLsb' 7 9 = 0)

/-- STATION_ENABLE out of range, in SETUP, and off outside SETUP: BAD_PARAM; the enabled field with what it was;
ENABLED becomes DISABLED with its ON entries and watches gone, FAILED becomes DISABLED, DISABLED stays (R92, R93).
STATION_ENABLE on outside SETUP: CONFIG_ERROR with the first of checks 2 to 6 that fails and what it reports; else
ENABLED with miss count 0, the runtime state before in RESULT0, and all else kept (R94). -/
def Obligations.StationEnableCommand : Prop :=
  (∀ s : State, s.Awaits 0x23 →
     let p := s.host.copy
     let outcome := exec .stationEnable s
     (15 < p[0].toNat ∨ 1 < p[1].toNat → outcome = .next (s.completed .badParam noWords))
     ∧ (∀ n : StationId, n.val = p[0].toNat → p[1].toNat ≤ 1 → s.control.op = .setup →
         outcome = .next
           (State.completed
             { s with stations := upd s.stations n (fun x =>
                 { x with config := { x.config with enabled := decide (p[1] = 1) } }) }
             .done #v[if s.stations[n].config.enabled then 1 else 0, 0, 0, 0, 0, 0]))
     ∧ (∀ n : StationId, n.val = p[0].toNat → p[1] = 0 → s.control.op ≠ .setup →
         (s.stations[n].runtime = .enabled → outcome = .next
           (State.completed
             { s with
               stations := upd s.stations n (fun x => { x with runtime := .disabled, watches := [] })
               list := { s.list with entries := s.list.entries.filter (fun e => e.kind ≠ .on n) } }
             .done
             #v[1, BitVec.ofNat 16 (s.list.entries.countP (fun e => e.kind = .on n)), 0, 0, 0, 0]))
         ∧ (s.stations[n].runtime = .failed → outcome = .next
           (State.completed { s with stations := upd s.stations n (fun x => { x with runtime := .disabled }) }
             .done #v[2, 0, 0, 0, 0, 0]))
         ∧ (s.stations[n].runtime = .disabled → outcome = .next (s.completed .done noWords))))
  ∧
  (∀ (s : State) (n : StationId), s.Awaits 0x23 → n.val = s.host.copy[0].toNat → s.host.copy[1] = 1 →
     s.control.op ≠ .setup →
     (∀ check unit, FirstFailure (s.enableFails n) check unit →
       exec .stationEnable s = .next
         (s.completed .configError #v[BitVec.ofNat 16 check, BitVec.ofNat 16 unit, 0, 0, 0, 0]))
     ∧ ((∀ check unit, ¬ s.enableFails n check unit) →
         exec .stationEnable s = .next
           (State.completed
             { s with stations := upd s.stations n (fun x => { x with runtime := .enabled, misses := 0 }) }
             .done
             #v[match s.stations[n].runtime with | .disabled => 0 | .enabled => 1 | .failed => 2, 0, 0, 0, 0, 0])))

/-- READ_COUNTS, in every operating state: the six numbers as they stand, with the free slots 192 less the entries less
the ON entries, all of them as in an empty part in SETUP, and nothing else changes (R180). READ_LANE_COUNTERS, in every
operating state: the counters of one group of one lane, set to 0 when the clear flag is set, and no others; BAD_PARAM
for a lane above 3 or a group above 1, with nothing read or cleared (R33). -/
def Obligations.CountCommands : Prop :=
  (∀ s : State, s.Awaits 0x24 → s.WithinCapacity → s.EventsSound →
     ∃ r : Vector Word 6, exec .readCounts s = .next (s.completed .done r)
       ∧ r[0].toNat = s.queue.items.length ∧ r[1].toNat = s.list.entries.length
       ∧ r[2].toNat = s.list.entries.countP Entry.isOn ∧ r[3].toNat = s.events.records.length
       ∧ r[4] = s.position.errors ∧ r[5].toNat + r[1].toNat + r[2].toNat = 192
       ∧ r[0].toNat ≤ 64 ∧ r[2].toNat ≤ 96 ∧ r[3].toNat ≤ 32
       ∧ (s.SetupIsEmpty → s.control.op = .setup → r[0] = 0 ∧ r[1] = 0 ∧ r[2] = 0 ∧ r[5] = 192))
  ∧
  (∀ s : State, s.Awaits 0x25 →
     let p := s.host.copy
     let outcome := exec .readLaneCounters s
     (3 < p[0].toNat ∨ 1 < p[1].toNat → outcome = .next (s.completed .badParam noWords))
     ∧ ∀ l : LaneId, l.val = p[0].toNat →
         let c := s.lanes[l].counters
         let lane (counters : LaneCounters) : State :=
           { s with lanes := upd s.lanes l (fun x => { x with counters := counters }) }
         (p[1] = 0 → outcome = .next
           ((if p[2] = 0 then s
             else lane { c with leading := 0, glitches := 0, pitchIgnored := 0, admitted := 0, refused := 0,
                                retired := 0 }).completed .done
             #v[c.leading, c.glitches, c.pitchIgnored, c.admitted, c.refused, c.retired]))
         ∧ (p[1] = 1 → outcome = .next
           ((if p[2] = 0 then s
             else lane { c with cancelled := 0, forcedRejects := 0, defaults := 0, noTrailing := 0 }).completed .done
             #v[c.cancelled, c.forcedRejects, c.defaults, c.noTrailing, 0, 0])))

/-- REINIT, in every operating state and with HLD at either level, ends with DONE: SETUP, nothing tracked, planned,
held or watched, every count 0, the next tag 1, the halt record and the event queue empty, CMD the only status bit;
positions as a return to SETUP leaves them, and all configuration kept (R148, R163). -/
def Obligations.ReinitClearsTheRun : Prop :=
  ∀ s : State, s.Awaits 0x2F →
    let tracking := if s.reverse = 0 then s.position.tracking else s.position.counter
    ∃ t, exec .reinit s = .next t
      ∧ t.control = { s.control with op := .setup, firstCause := none, causeMask := 0 }
      ∧ t.position = { s.position with tracking := tracking, errors := 0 }
      ∧ t.queue = { items := [], nextTag := 1 }
      ∧ t.list = { entries := [], firingPoint := tracking }
      ∧ (∀ l : LaneId, t.lanes[l].config = s.lanes[l].config ∧ t.lanes[l].detector = .off
          ∧ t.lanes[l].previous = none ∧ t.lanes[l].counters = .zero)
      ∧ (∀ n : StationId, t.stations[n] = { config := s.stations[n].config, runtime := .disabled, pulse := none,
                                            misses := 0, strays := 0, watches := [] })
      ∧ (∀ o : OutputId, t.outputs[o] = { s.outputs[o] with forced := .none, held := none }
          ∧ t.lineActive o = false)
      ∧ t.events = { s.events with records := [], index := 0 }
      ∧ t.host = { s.host with busy := false, resultCode := .done, intStatus := 1
                               results := #v[match s.control.op with | .setup => 0 | .tracking => 1 | .halted => 2,
                                             0, 0, 0, 0, 0] }
      ∧ t = { s with control := t.control, position := t.position, queue := t.queue, list := t.list, lanes := t.lanes,
                     stations := t.stations, outputs := t.outputs, events := t.events, host := t.host }

/-! ### What every step keeps -/

/-- The state after reset meets every invariant stated here. The pin levels it rests on for the references and the
HLD sample are the model's choice (notes/assumptions/5.md). -/
def Obligations.ResetMeetsTheInvariants : Prop :=
  State.reset.WithinCapacity ∧ State.reset.EventsSound ∧ State.reset.SetupIsEmpty ∧ State.reset.StationsServed
    ∧ State.reset.HaltRecorded ∧ State.reset.HoldRespected ∧ State.reset.OutputsSound ∧ State.reset.DetectorsSound
    ∧ State.reset.TagsSound ∧ State.reset.ListMatchesQueue ∧ State.reset.ConfigSound ∧ State.reset.ReferencesCurrent
    ∧ State.reset.ListAheadOfTheBelt ∧ State.reset.ListInOrder ∧ State.reset.EntriesNameLiveItems

/-- Every step keeps the capacities: 64 records, 192 slots with the reservations, four watches a station (R35, R66,
R124). Every step keeps the event queue sound: at most 32 records, a full queue ending in EVENTS_LOST, the threshold
in range (R155, R157, R160). -/
def Obligations.CapacitiesAreKept : Prop :=
  (KeptByStep State.WithinCapacity)
  ∧
  (KeptByStep State.EventsSound)

/-- Every step keeps SETUP empty, and keeps stations out of service, and every station in HALTED, without watches,
and those out of service without ON entries (R7, R62, R85, R90, R124, R133). -/
def Obligations.StationsAreServedInState : Prop :=
  KeptByStep State.SetupIsEmpty ∧ KeptByStep State.StationsServed

/-- Every step keeps the record of the halt: none in TRACKING, a first cause in HALTED with its bit in the mask, and no
halt request on its way in SETUP, in a part that does not run, or when no command waits (the last is the model's choice,
notes/assumptions/10.md); and the part never stays in TRACKING with HLD asserted (R140, R142, R145, R169). Every step
keeps held levels to the HOLD lines of HALTED and forced states to SETUP, and detectors OFF in SETUP and in lanes that
are not enabled (R18, R114, R119). -/
def Obligations.ControlAndOutputsAreKept : Prop :=
  (KeptByStep State.HaltRecorded ∧ KeptByStep State.HoldRespected)
  ∧
  (KeptByStep State.OutputsSound ∧ KeptByStep State.DetectorsSound)

/-- Every step keeps the live items' tags distinct and not 0, and each live item with exactly one RETIRE entry, and
no RETIRE entry without its item (R35, R37, R67). -/
def Obligations.EveryItemIsRetiredOnce : Prop :=
  KeptByStep State.TagsSound ∧ KeptByStep State.ListMatchesQueue

/-- Every step keeps every configuration in range, and the references of the decoder and of the confirm inputs at the
pins' levels while the part runs (R1, R16, R87, R122, R178). -/
def Obligations.ConfigurationAndReferencesAreKept : Prop :=
  KeptByStep State.ConfigSound ∧ KeptByStep State.ReferencesCurrent

/-- The operating state changes only as the manual's table says: SETUP is left by START alone, HALTED by RESUME and
by STOP and REINIT, TRACKING for SETUP by STOP and REINIT; resets apart. With no halt request on its way TRACKING is left
for HALTED by HALT, by HLD becoming asserted, and by the events that raise a request: encoder transitions, changes of a
DET input, and watches that run out (R136). An idle step leaves SETUP and HALTED as they are, and takes TRACKING to HALTED
only for a request on its way or, at a tick, a station that fails with HALT_ON_FAIL on (R96, R140); that an idle step is a
CLKIN period is the model's choice (notes/assumptions/3.md). -/
def Obligations.OperatingStateChanges : Prop :=
  (∀ (c : Instr) (s t : State), isResetCommand c = false → exec c s = .next t →
    (s.control.op = .setup → t.control.op ≠ .setup → c = .start ∧ t.control.op = .tracking)
    ∧ (s.control.op = .halted → t.control.op = .tracking → c = .resume)
    ∧ (s.control.op ≠ .setup → t.control.op = .setup → c = .stop ∨ c = .reinit)
    ∧ (s.control.op = .tracking → s.control.requests = [] → t.control.op = .halted →
        c = .halt ∨ (c = .hldAssert ∧ s.control.hldAsserted = false) ∨ (∃ a b, c = .encoderTransition a b)
          ∨ (∃ l level, c = .detInputChange l level ∧ s.lanes[l].config.overflow = .halt)
          ∨ ∃ n, c = .watchExpiry n ∧ s.globals.haltOnFail = true))
  ∧
  (∀ s t : State, s.pending = [] → step s = .next t →
    t.control.op = s.control.op
    ∨ (s.control.op = .tracking ∧ t.control.op = .halted ∧ s.running = true
        ∧ (s.control.requests ≠ []
            ∨ (s.globals.haltOnFail = true ∧ ∃ n : StationId, ∃ w ∈ s.stations[n].watches, w.timeLeft.toNat ≤ 1))))

/-- Outside SETUP no command but a reset changes a configuration: of a lane, a station, an output line, or of the
position unit and the clock (R16, R87, R108, R178). -/
def Obligations.ConfigurationIsFixedOutsideSetup : Prop :=
  ∀ (c : Instr) (s t : State), isResetCommand c = false → s.control.op ≠ .setup → exec c s = .next t →
    (∀ l : LaneId, t.lanes[l].config = s.lanes[l].config)
    ∧ (∀ n : StationId, t.stations[n].config = s.stations[n].config)
    ∧ (∀ o : OutputId, t.outputs[o].activeLow = s.outputs[o].activeLow ∧ t.outputs[o].fault = s.outputs[o].fault)
    ∧ t.position.mode = s.position.mode ∧ t.position.invert = s.position.invert
    ∧ t.position.tolerance = s.position.tolerance ∧ t.globals = s.globals ∧ t.events.mask = s.events.mask

/-- Outside SETUP the tracking position moves by an advance of one count or not at all, as long as the part stays
outside SETUP, and only at an encoder transition (R8). -/
def Obligations.TrackingPositionNeverFallsBack : Prop :=
  ∀ (c : Instr) (s t : State), isResetCommand c = false → s.control.op ≠ .setup → t.control.op ≠ .setup →
    exec c s = .next t →
    t.position.tracking = s.position.tracking
      ∨ (t.position.tracking = s.position.tracking + 1 ∧ s.reverse = 0 ∧ ∃ a b, c = .encoderTransition a b)

/-- Every step keeps the list ahead of the belt: in TRACKING no entry is at or behind the tracking position, and in HALTED
only reached entries are; it is the invariant of R71, with what it rests on (R21, R68, R71, R81, R105). Every step keeps
the list in list order, each entry by its distance from the firing point and then by its kind (R65), and keeps every
RETIRE, DEADLINE and ON entry naming a live item (R67), each with what it rests on. -/
def Obligations.NothingStandsBehindTheBelt : Prop :=
  KeptByStep State.ListAheadOfTheBelt ∧ KeptByStep State.ListInOrder ∧ KeptByStep State.EntriesNameLiveItems
end

