-- ==== Sys2Proof/Laws/State.lean ====
section
/-! SUPPORT. For each plain update of the state, one lemma per field it leaves unchanged, and for the fields it
changes the value it gives; all true by definition. -/

namespace Sys2Proof.Machine

variable (s : State)

/-! #### updLane -/

@[simp] theorem updLane_power (l : LaneId) (f : Lane → Lane) : (s.updLane l f).power = s.power := rfl
@[simp] theorem updLane_pins (l : LaneId) (f : Lane → Lane) : (s.updLane l f).pins = s.pins := rfl
@[simp] theorem updLane_position (l : LaneId) (f : Lane → Lane) : (s.updLane l f).position = s.position := rfl
@[simp] theorem updLane_queue (l : LaneId) (f : Lane → Lane) : (s.updLane l f).queue = s.queue := rfl
@[simp] theorem updLane_list (l : LaneId) (f : Lane → Lane) : (s.updLane l f).list = s.list := rfl
@[simp] theorem updLane_stations (l : LaneId) (f : Lane → Lane) : (s.updLane l f).stations = s.stations := rfl
@[simp] theorem updLane_outputs (l : LaneId) (f : Lane → Lane) : (s.updLane l f).outputs = s.outputs := rfl
@[simp] theorem updLane_cfmRef (l : LaneId) (f : Lane → Lane) : (s.updLane l f).cfmRef = s.cfmRef := rfl
@[simp] theorem updLane_events (l : LaneId) (f : Lane → Lane) : (s.updLane l f).events = s.events := rfl
@[simp] theorem updLane_control (l : LaneId) (f : Lane → Lane) : (s.updLane l f).control = s.control := rfl
@[simp] theorem updLane_host (l : LaneId) (f : Lane → Lane) : (s.updLane l f).host = s.host := rfl
@[simp] theorem updLane_globals (l : LaneId) (f : Lane → Lane) : (s.updLane l f).globals = s.globals := rfl
@[simp] theorem updLane_readData (l : LaneId) (f : Lane → Lane) : (s.updLane l f).readData = s.readData := rfl
@[simp] theorem updLane_choices (l : LaneId) (f : Lane → Lane) : (s.updLane l f).choices = s.choices := rfl
@[simp] theorem updLane_pending (l : LaneId) (f : Lane → Lane) : (s.updLane l f).pending = s.pending := rfl

/-! #### updStation -/

@[simp] theorem updStation_power (n : StationId) (f : Station → Station) : (s.updStation n f).power = s.power := rfl
@[simp] theorem updStation_pins (n : StationId) (f : Station → Station) : (s.updStation n f).pins = s.pins := rfl
@[simp] theorem updStation_position (n : StationId) (f : Station → Station) : (s.updStation n f).position = s.position := rfl
@[simp] theorem updStation_lanes (n : StationId) (f : Station → Station) : (s.updStation n f).lanes = s.lanes := rfl
@[simp] theorem updStation_queue (n : StationId) (f : Station → Station) : (s.updStation n f).queue = s.queue := rfl
@[simp] theorem updStation_list (n : StationId) (f : Station → Station) : (s.updStation n f).list = s.list := rfl
@[simp] theorem updStation_outputs (n : StationId) (f : Station → Station) : (s.updStation n f).outputs = s.outputs := rfl
@[simp] theorem updStation_cfmRef (n : StationId) (f : Station → Station) : (s.updStation n f).cfmRef = s.cfmRef := rfl
@[simp] theorem updStation_events (n : StationId) (f : Station → Station) : (s.updStation n f).events = s.events := rfl
@[simp] theorem updStation_control (n : StationId) (f : Station → Station) : (s.updStation n f).control = s.control := rfl
@[simp] theorem updStation_host (n : StationId) (f : Station → Station) : (s.updStation n f).host = s.host := rfl
@[simp] theorem updStation_globals (n : StationId) (f : Station → Station) : (s.updStation n f).globals = s.globals := rfl
@[simp] theorem updStation_readData (n : StationId) (f : Station → Station) : (s.updStation n f).readData = s.readData := rfl
@[simp] theorem updStation_choices (n : StationId) (f : Station → Station) : (s.updStation n f).choices = s.choices := rfl
@[simp] theorem updStation_pending (n : StationId) (f : Station → Station) : (s.updStation n f).pending = s.pending := rfl

/-! #### updOutput -/

@[simp] theorem updOutput_power (o : OutputId) (f : OutputLine → OutputLine) : (s.updOutput o f).power = s.power := rfl
@[simp] theorem updOutput_pins (o : OutputId) (f : OutputLine → OutputLine) : (s.updOutput o f).pins = s.pins := rfl
@[simp] theorem updOutput_position (o : OutputId) (f : OutputLine → OutputLine) : (s.updOutput o f).position = s.position := rfl
@[simp] theorem updOutput_lanes (o : OutputId) (f : OutputLine → OutputLine) : (s.updOutput o f).lanes = s.lanes := rfl
@[simp] theorem updOutput_queue (o : OutputId) (f : OutputLine → OutputLine) : (s.updOutput o f).queue = s.queue := rfl
@[simp] theorem updOutput_list (o : OutputId) (f : OutputLine → OutputLine) : (s.updOutput o f).list = s.list := rfl
@[simp] theorem updOutput_stations (o : OutputId) (f : OutputLine → OutputLine) : (s.updOutput o f).stations = s.stations := rfl
@[simp] theorem updOutput_cfmRef (o : OutputId) (f : OutputLine → OutputLine) : (s.updOutput o f).cfmRef = s.cfmRef := rfl
@[simp] theorem updOutput_events (o : OutputId) (f : OutputLine → OutputLine) : (s.updOutput o f).events = s.events := rfl
@[simp] theorem updOutput_control (o : OutputId) (f : OutputLine → OutputLine) : (s.updOutput o f).control = s.control := rfl
@[simp] theorem updOutput_host (o : OutputId) (f : OutputLine → OutputLine) : (s.updOutput o f).host = s.host := rfl
@[simp] theorem updOutput_globals (o : OutputId) (f : OutputLine → OutputLine) : (s.updOutput o f).globals = s.globals := rfl
@[simp] theorem updOutput_readData (o : OutputId) (f : OutputLine → OutputLine) : (s.updOutput o f).readData = s.readData := rfl
@[simp] theorem updOutput_choices (o : OutputId) (f : OutputLine → OutputLine) : (s.updOutput o f).choices = s.choices := rfl
@[simp] theorem updOutput_pending (o : OutputId) (f : OutputLine → OutputLine) : (s.updOutput o f).pending = s.pending := rfl

/-! #### updItem -/

@[simp] theorem updItem_power (tag : Tag) (f : Item → Item) : (s.updItem tag f).power = s.power := rfl
@[simp] theorem updItem_pins (tag : Tag) (f : Item → Item) : (s.updItem tag f).pins = s.pins := rfl
@[simp] theorem updItem_position (tag : Tag) (f : Item → Item) : (s.updItem tag f).position = s.position := rfl
@[simp] theorem updItem_lanes (tag : Tag) (f : Item → Item) : (s.updItem tag f).lanes = s.lanes := rfl
@[simp] theorem updItem_list (tag : Tag) (f : Item → Item) : (s.updItem tag f).list = s.list := rfl
@[simp] theorem updItem_stations (tag : Tag) (f : Item → Item) : (s.updItem tag f).stations = s.stations := rfl
@[simp] theorem updItem_outputs (tag : Tag) (f : Item → Item) : (s.updItem tag f).outputs = s.outputs := rfl
@[simp] theorem updItem_cfmRef (tag : Tag) (f : Item → Item) : (s.updItem tag f).cfmRef = s.cfmRef := rfl
@[simp] theorem updItem_events (tag : Tag) (f : Item → Item) : (s.updItem tag f).events = s.events := rfl
@[simp] theorem updItem_control (tag : Tag) (f : Item → Item) : (s.updItem tag f).control = s.control := rfl
@[simp] theorem updItem_host (tag : Tag) (f : Item → Item) : (s.updItem tag f).host = s.host := rfl
@[simp] theorem updItem_globals (tag : Tag) (f : Item → Item) : (s.updItem tag f).globals = s.globals := rfl
@[simp] theorem updItem_readData (tag : Tag) (f : Item → Item) : (s.updItem tag f).readData = s.readData := rfl
@[simp] theorem updItem_choices (tag : Tag) (f : Item → Item) : (s.updItem tag f).choices = s.choices := rfl
@[simp] theorem updItem_pending (tag : Tag) (f : Item → Item) : (s.updItem tag f).pending = s.pending := rfl

/-! #### updEntries -/

@[simp] theorem updEntries_power (f : List Entry → List Entry) : (s.updEntries f).power = s.power := rfl
@[simp] theorem updEntries_pins (f : List Entry → List Entry) : (s.updEntries f).pins = s.pins := rfl
@[simp] theorem updEntries_position (f : List Entry → List Entry) : (s.updEntries f).position = s.position := rfl
@[simp] theorem updEntries_lanes (f : List Entry → List Entry) : (s.updEntries f).lanes = s.lanes := rfl
@[simp] theorem updEntries_queue (f : List Entry → List Entry) : (s.updEntries f).queue = s.queue := rfl
@[simp] theorem updEntries_stations (f : List Entry → List Entry) : (s.updEntries f).stations = s.stations := rfl
@[simp] theorem updEntries_outputs (f : List Entry → List Entry) : (s.updEntries f).outputs = s.outputs := rfl
@[simp] theorem updEntries_cfmRef (f : List Entry → List Entry) : (s.updEntries f).cfmRef = s.cfmRef := rfl
@[simp] theorem updEntries_events (f : List Entry → List Entry) : (s.updEntries f).events = s.events := rfl
@[simp] theorem updEntries_control (f : List Entry → List Entry) : (s.updEntries f).control = s.control := rfl
@[simp] theorem updEntries_host (f : List Entry → List Entry) : (s.updEntries f).host = s.host := rfl
@[simp] theorem updEntries_globals (f : List Entry → List Entry) : (s.updEntries f).globals = s.globals := rfl
@[simp] theorem updEntries_readData (f : List Entry → List Entry) : (s.updEntries f).readData = s.readData := rfl
@[simp] theorem updEntries_choices (f : List Entry → List Entry) : (s.updEntries f).choices = s.choices := rfl
@[simp] theorem updEntries_pending (f : List Entry → List Entry) : (s.updEntries f).pending = s.pending := rfl

/-! #### setDetector -/

@[simp] theorem setDetector_power (l : LaneId) (d : Detector) : (s.setDetector l d).power = s.power := rfl
@[simp] theorem setDetector_pins (l : LaneId) (d : Detector) : (s.setDetector l d).pins = s.pins := rfl
@[simp] theorem setDetector_position (l : LaneId) (d : Detector) : (s.setDetector l d).position = s.position := rfl
@[simp] theorem setDetector_queue (l : LaneId) (d : Detector) : (s.setDetector l d).queue = s.queue := rfl
@[simp] theorem setDetector_list (l : LaneId) (d : Detector) : (s.setDetector l d).list = s.list := rfl
@[simp] theorem setDetector_stations (l : LaneId) (d : Detector) : (s.setDetector l d).stations = s.stations := rfl
@[simp] theorem setDetector_outputs (l : LaneId) (d : Detector) : (s.setDetector l d).outputs = s.outputs := rfl
@[simp] theorem setDetector_cfmRef (l : LaneId) (d : Detector) : (s.setDetector l d).cfmRef = s.cfmRef := rfl
@[simp] theorem setDetector_events (l : LaneId) (d : Detector) : (s.setDetector l d).events = s.events := rfl
@[simp] theorem setDetector_control (l : LaneId) (d : Detector) : (s.setDetector l d).control = s.control := rfl
@[simp] theorem setDetector_host (l : LaneId) (d : Detector) : (s.setDetector l d).host = s.host := rfl
@[simp] theorem setDetector_globals (l : LaneId) (d : Detector) : (s.setDetector l d).globals = s.globals := rfl
@[simp] theorem setDetector_readData (l : LaneId) (d : Detector) : (s.setDetector l d).readData = s.readData := rfl
@[simp] theorem setDetector_choices (l : LaneId) (d : Detector) : (s.setDetector l d).choices = s.choices := rfl
@[simp] theorem setDetector_pending (l : LaneId) (d : Detector) : (s.setDetector l d).pending = s.pending := rfl

/-! #### countLane -/

@[simp] theorem countLane_power (l : LaneId) (n : CounterName) : (s.countLane l n).power = s.power := rfl
@[simp] theorem countLane_pins (l : LaneId) (n : CounterName) : (s.countLane l n).pins = s.pins := rfl
@[simp] theorem countLane_position (l : LaneId) (n : CounterName) : (s.countLane l n).position = s.position := rfl
@[simp] theorem countLane_queue (l : LaneId) (n : CounterName) : (s.countLane l n).queue = s.queue := rfl
@[simp] theorem countLane_list (l : LaneId) (n : CounterName) : (s.countLane l n).list = s.list := rfl
@[simp] theorem countLane_stations (l : LaneId) (n : CounterName) : (s.countLane l n).stations = s.stations := rfl
@[simp] theorem countLane_outputs (l : LaneId) (n : CounterName) : (s.countLane l n).outputs = s.outputs := rfl
@[simp] theorem countLane_cfmRef (l : LaneId) (n : CounterName) : (s.countLane l n).cfmRef = s.cfmRef := rfl
@[simp] theorem countLane_events (l : LaneId) (n : CounterName) : (s.countLane l n).events = s.events := rfl
@[simp] theorem countLane_control (l : LaneId) (n : CounterName) : (s.countLane l n).control = s.control := rfl
@[simp] theorem countLane_host (l : LaneId) (n : CounterName) : (s.countLane l n).host = s.host := rfl
@[simp] theorem countLane_globals (l : LaneId) (n : CounterName) : (s.countLane l n).globals = s.globals := rfl
@[simp] theorem countLane_readData (l : LaneId) (n : CounterName) : (s.countLane l n).readData = s.readData := rfl
@[simp] theorem countLane_choices (l : LaneId) (n : CounterName) : (s.countLane l n).choices = s.choices := rfl
@[simp] theorem countLane_pending (l : LaneId) (n : CounterName) : (s.countLane l n).pending = s.pending := rfl

/-! #### raiseInt -/

@[simp] theorem raiseInt_power (b : BitVec 4) : (s.raiseInt b).power = s.power := rfl
@[simp] theorem raiseInt_pins (b : BitVec 4) : (s.raiseInt b).pins = s.pins := rfl
@[simp] theorem raiseInt_position (b : BitVec 4) : (s.raiseInt b).position = s.position := rfl
@[simp] theorem raiseInt_lanes (b : BitVec 4) : (s.raiseInt b).lanes = s.lanes := rfl
@[simp] theorem raiseInt_queue (b : BitVec 4) : (s.raiseInt b).queue = s.queue := rfl
@[simp] theorem raiseInt_list (b : BitVec 4) : (s.raiseInt b).list = s.list := rfl
@[simp] theorem raiseInt_stations (b : BitVec 4) : (s.raiseInt b).stations = s.stations := rfl
@[simp] theorem raiseInt_outputs (b : BitVec 4) : (s.raiseInt b).outputs = s.outputs := rfl
@[simp] theorem raiseInt_cfmRef (b : BitVec 4) : (s.raiseInt b).cfmRef = s.cfmRef := rfl
@[simp] theorem raiseInt_events (b : BitVec 4) : (s.raiseInt b).events = s.events := rfl
@[simp] theorem raiseInt_control (b : BitVec 4) : (s.raiseInt b).control = s.control := rfl
@[simp] theorem raiseInt_globals (b : BitVec 4) : (s.raiseInt b).globals = s.globals := rfl
@[simp] theorem raiseInt_readData (b : BitVec 4) : (s.raiseInt b).readData = s.readData := rfl
@[simp] theorem raiseInt_choices (b : BitVec 4) : (s.raiseInt b).choices = s.choices := rfl
@[simp] theorem raiseInt_pending (b : BitVec 4) : (s.raiseInt b).pending = s.pending := rfl

/-! #### place -/

@[simp] theorem place_power (e : Entry) : (s.place e).power = s.power := rfl
@[simp] theorem place_pins (e : Entry) : (s.place e).pins = s.pins := rfl
@[simp] theorem place_position (e : Entry) : (s.place e).position = s.position := rfl
@[simp] theorem place_lanes (e : Entry) : (s.place e).lanes = s.lanes := rfl
@[simp] theorem place_queue (e : Entry) : (s.place e).queue = s.queue := rfl
@[simp] theorem place_stations (e : Entry) : (s.place e).stations = s.stations := rfl
@[simp] theorem place_outputs (e : Entry) : (s.place e).outputs = s.outputs := rfl
@[simp] theorem place_cfmRef (e : Entry) : (s.place e).cfmRef = s.cfmRef := rfl
@[simp] theorem place_events (e : Entry) : (s.place e).events = s.events := rfl
@[simp] theorem place_control (e : Entry) : (s.place e).control = s.control := rfl
@[simp] theorem place_host (e : Entry) : (s.place e).host = s.host := rfl
@[simp] theorem place_globals (e : Entry) : (s.place e).globals = s.globals := rfl
@[simp] theorem place_readData (e : Entry) : (s.place e).readData = s.readData := rfl
@[simp] theorem place_choices (e : Entry) : (s.place e).choices = s.choices := rfl
@[simp] theorem place_pending (e : Entry) : (s.place e).pending = s.pending := rfl

/-! #### unmarkTag -/

@[simp] theorem unmarkTag_power (tag : Tag) : (s.unmarkTag tag).power = s.power := rfl
@[simp] theorem unmarkTag_pins (tag : Tag) : (s.unmarkTag tag).pins = s.pins := rfl
@[simp] theorem unmarkTag_position (tag : Tag) : (s.unmarkTag tag).position = s.position := rfl
@[simp] theorem unmarkTag_lanes (tag : Tag) : (s.unmarkTag tag).lanes = s.lanes := rfl
@[simp] theorem unmarkTag_queue (tag : Tag) : (s.unmarkTag tag).queue = s.queue := rfl
@[simp] theorem unmarkTag_stations (tag : Tag) : (s.unmarkTag tag).stations = s.stations := rfl
@[simp] theorem unmarkTag_outputs (tag : Tag) : (s.unmarkTag tag).outputs = s.outputs := rfl
@[simp] theorem unmarkTag_cfmRef (tag : Tag) : (s.unmarkTag tag).cfmRef = s.cfmRef := rfl
@[simp] theorem unmarkTag_events (tag : Tag) : (s.unmarkTag tag).events = s.events := rfl
@[simp] theorem unmarkTag_control (tag : Tag) : (s.unmarkTag tag).control = s.control := rfl
@[simp] theorem unmarkTag_host (tag : Tag) : (s.unmarkTag tag).host = s.host := rfl
@[simp] theorem unmarkTag_globals (tag : Tag) : (s.unmarkTag tag).globals = s.globals := rfl
@[simp] theorem unmarkTag_readData (tag : Tag) : (s.unmarkTag tag).readData = s.readData := rfl
@[simp] theorem unmarkTag_choices (tag : Tag) : (s.unmarkTag tag).choices = s.choices := rfl
@[simp] theorem unmarkTag_pending (tag : Tag) : (s.unmarkTag tag).pending = s.pending := rfl

/-! #### removeOnEntries -/

@[simp] theorem removeOnEntries_power (n : StationId) : (s.removeOnEntries n).power = s.power := rfl
@[simp] theorem removeOnEntries_pins (n : StationId) : (s.removeOnEntries n).pins = s.pins := rfl
@[simp] theorem removeOnEntries_position (n : StationId) : (s.removeOnEntries n).position = s.position := rfl
@[simp] theorem removeOnEntries_lanes (n : StationId) : (s.removeOnEntries n).lanes = s.lanes := rfl
@[simp] theorem removeOnEntries_queue (n : StationId) : (s.removeOnEntries n).queue = s.queue := rfl
@[simp] theorem removeOnEntries_stations (n : StationId) : (s.removeOnEntries n).stations = s.stations := rfl
@[simp] theorem removeOnEntries_outputs (n : StationId) : (s.removeOnEntries n).outputs = s.outputs := rfl
@[simp] theorem removeOnEntries_cfmRef (n : StationId) : (s.removeOnEntries n).cfmRef = s.cfmRef := rfl
@[simp] theorem removeOnEntries_events (n : StationId) : (s.removeOnEntries n).events = s.events := rfl
@[simp] theorem removeOnEntries_control (n : StationId) : (s.removeOnEntries n).control = s.control := rfl
@[simp] theorem removeOnEntries_host (n : StationId) : (s.removeOnEntries n).host = s.host := rfl
@[simp] theorem removeOnEntries_globals (n : StationId) : (s.removeOnEntries n).globals = s.globals := rfl
@[simp] theorem removeOnEntries_readData (n : StationId) : (s.removeOnEntries n).readData = s.readData := rfl
@[simp] theorem removeOnEntries_choices (n : StationId) : (s.removeOnEntries n).choices = s.choices := rfl
@[simp] theorem removeOnEntries_pending (n : StationId) : (s.removeOnEntries n).pending = s.pending := rfl

/-! #### rekey -/

@[simp] theorem rekey_power (tag : Tag) (t : Pos) : (s.rekey tag t).power = s.power := rfl
@[simp] theorem rekey_pins (tag : Tag) (t : Pos) : (s.rekey tag t).pins = s.pins := rfl
@[simp] theorem rekey_position (tag : Tag) (t : Pos) : (s.rekey tag t).position = s.position := rfl
@[simp] theorem rekey_lanes (tag : Tag) (t : Pos) : (s.rekey tag t).lanes = s.lanes := rfl
@[simp] theorem rekey_queue (tag : Tag) (t : Pos) : (s.rekey tag t).queue = s.queue := rfl
@[simp] theorem rekey_stations (tag : Tag) (t : Pos) : (s.rekey tag t).stations = s.stations := rfl
@[simp] theorem rekey_outputs (tag : Tag) (t : Pos) : (s.rekey tag t).outputs = s.outputs := rfl
@[simp] theorem rekey_cfmRef (tag : Tag) (t : Pos) : (s.rekey tag t).cfmRef = s.cfmRef := rfl
@[simp] theorem rekey_events (tag : Tag) (t : Pos) : (s.rekey tag t).events = s.events := rfl
@[simp] theorem rekey_control (tag : Tag) (t : Pos) : (s.rekey tag t).control = s.control := rfl
@[simp] theorem rekey_host (tag : Tag) (t : Pos) : (s.rekey tag t).host = s.host := rfl
@[simp] theorem rekey_globals (tag : Tag) (t : Pos) : (s.rekey tag t).globals = s.globals := rfl
@[simp] theorem rekey_readData (tag : Tag) (t : Pos) : (s.rekey tag t).readData = s.readData := rfl
@[simp] theorem rekey_choices (tag : Tag) (t : Pos) : (s.rekey tag t).choices = s.choices := rfl
@[simp] theorem rekey_pending (tag : Tag) (t : Pos) : (s.rekey tag t).pending = s.pending := rfl

/-! #### markReached -/

@[simp] theorem markReached_power : (s.markReached).power = s.power := rfl
@[simp] theorem markReached_pins : (s.markReached).pins = s.pins := rfl
@[simp] theorem markReached_position : (s.markReached).position = s.position := rfl
@[simp] theorem markReached_lanes : (s.markReached).lanes = s.lanes := rfl
@[simp] theorem markReached_queue : (s.markReached).queue = s.queue := rfl
@[simp] theorem markReached_stations : (s.markReached).stations = s.stations := rfl
@[simp] theorem markReached_outputs : (s.markReached).outputs = s.outputs := rfl
@[simp] theorem markReached_cfmRef : (s.markReached).cfmRef = s.cfmRef := rfl
@[simp] theorem markReached_events : (s.markReached).events = s.events := rfl
@[simp] theorem markReached_control : (s.markReached).control = s.control := rfl
@[simp] theorem markReached_host : (s.markReached).host = s.host := rfl
@[simp] theorem markReached_globals : (s.markReached).globals = s.globals := rfl
@[simp] theorem markReached_readData : (s.markReached).readData = s.readData := rfl
@[simp] theorem markReached_choices : (s.markReached).choices = s.choices := rfl
@[simp] theorem markReached_pending : (s.markReached).pending = s.pending := rfl

/-! #### settleFiringPoint -/

@[simp] theorem settleFiringPoint_power : (s.settleFiringPoint).power = s.power := rfl
@[simp] theorem settleFiringPoint_pins : (s.settleFiringPoint).pins = s.pins := rfl
@[simp] theorem settleFiringPoint_position : (s.settleFiringPoint).position = s.position := rfl
@[simp] theorem settleFiringPoint_lanes : (s.settleFiringPoint).lanes = s.lanes := rfl
@[simp] theorem settleFiringPoint_queue : (s.settleFiringPoint).queue = s.queue := rfl
@[simp] theorem settleFiringPoint_stations : (s.settleFiringPoint).stations = s.stations := rfl
@[simp] theorem settleFiringPoint_outputs : (s.settleFiringPoint).outputs = s.outputs := rfl
@[simp] theorem settleFiringPoint_cfmRef : (s.settleFiringPoint).cfmRef = s.cfmRef := rfl
@[simp] theorem settleFiringPoint_events : (s.settleFiringPoint).events = s.events := rfl
@[simp] theorem settleFiringPoint_control : (s.settleFiringPoint).control = s.control := rfl
@[simp] theorem settleFiringPoint_host : (s.settleFiringPoint).host = s.host := rfl
@[simp] theorem settleFiringPoint_globals : (s.settleFiringPoint).globals = s.globals := rfl
@[simp] theorem settleFiringPoint_readData : (s.settleFiringPoint).readData = s.readData := rfl
@[simp] theorem settleFiringPoint_choices : (s.settleFiringPoint).choices = s.choices := rfl
@[simp] theorem settleFiringPoint_pending : (s.settleFiringPoint).pending = s.pending := rfl

/-! #### freeItem -/

@[simp] theorem freeItem_power (tag : Tag) : (s.freeItem tag).power = s.power := rfl
@[simp] theorem freeItem_pins (tag : Tag) : (s.freeItem tag).pins = s.pins := rfl
@[simp] theorem freeItem_position (tag : Tag) : (s.freeItem tag).position = s.position := rfl
@[simp] theorem freeItem_lanes (tag : Tag) : (s.freeItem tag).lanes = s.lanes := rfl
@[simp] theorem freeItem_stations (tag : Tag) : (s.freeItem tag).stations = s.stations := rfl
@[simp] theorem freeItem_outputs (tag : Tag) : (s.freeItem tag).outputs = s.outputs := rfl
@[simp] theorem freeItem_cfmRef (tag : Tag) : (s.freeItem tag).cfmRef = s.cfmRef := rfl
@[simp] theorem freeItem_events (tag : Tag) : (s.freeItem tag).events = s.events := rfl
@[simp] theorem freeItem_control (tag : Tag) : (s.freeItem tag).control = s.control := rfl
@[simp] theorem freeItem_host (tag : Tag) : (s.freeItem tag).host = s.host := rfl
@[simp] theorem freeItem_globals (tag : Tag) : (s.freeItem tag).globals = s.globals := rfl
@[simp] theorem freeItem_readData (tag : Tag) : (s.freeItem tag).readData = s.readData := rfl
@[simp] theorem freeItem_choices (tag : Tag) : (s.freeItem tag).choices = s.choices := rfl
@[simp] theorem freeItem_pending (tag : Tag) : (s.freeItem tag).pending = s.pending := rfl

/-! #### storeTrailing -/

@[simp] theorem storeTrailing_power (i : Item) (p : Pos) : (s.storeTrailing i p).power = s.power := rfl
@[simp] theorem storeTrailing_pins (i : Item) (p : Pos) : (s.storeTrailing i p).pins = s.pins := rfl
@[simp] theorem storeTrailing_position (i : Item) (p : Pos) : (s.storeTrailing i p).position = s.position := rfl
@[simp] theorem storeTrailing_lanes (i : Item) (p : Pos) : (s.storeTrailing i p).lanes = s.lanes := rfl
@[simp] theorem storeTrailing_list (i : Item) (p : Pos) : (s.storeTrailing i p).list = s.list := rfl
@[simp] theorem storeTrailing_stations (i : Item) (p : Pos) : (s.storeTrailing i p).stations = s.stations := rfl
@[simp] theorem storeTrailing_outputs (i : Item) (p : Pos) : (s.storeTrailing i p).outputs = s.outputs := rfl
@[simp] theorem storeTrailing_cfmRef (i : Item) (p : Pos) : (s.storeTrailing i p).cfmRef = s.cfmRef := rfl
@[simp] theorem storeTrailing_events (i : Item) (p : Pos) : (s.storeTrailing i p).events = s.events := rfl
@[simp] theorem storeTrailing_control (i : Item) (p : Pos) : (s.storeTrailing i p).control = s.control := rfl
@[simp] theorem storeTrailing_host (i : Item) (p : Pos) : (s.storeTrailing i p).host = s.host := rfl
@[simp] theorem storeTrailing_globals (i : Item) (p : Pos) : (s.storeTrailing i p).globals = s.globals := rfl
@[simp] theorem storeTrailing_readData (i : Item) (p : Pos) : (s.storeTrailing i p).readData = s.readData := rfl
@[simp] theorem storeTrailing_choices (i : Item) (p : Pos) : (s.storeTrailing i p).choices = s.choices := rfl
@[simp] theorem storeTrailing_pending (i : Item) (p : Pos) : (s.storeTrailing i p).pending = s.pending := rfl

/-! #### discardWatches -/

@[simp] theorem discardWatches_power : (s.discardWatches).power = s.power := rfl
@[simp] theorem discardWatches_pins : (s.discardWatches).pins = s.pins := rfl
@[simp] theorem discardWatches_position : (s.discardWatches).position = s.position := rfl
@[simp] theorem discardWatches_lanes : (s.discardWatches).lanes = s.lanes := rfl
@[simp] theorem discardWatches_queue : (s.discardWatches).queue = s.queue := rfl
@[simp] theorem discardWatches_list : (s.discardWatches).list = s.list := rfl
@[simp] theorem discardWatches_outputs : (s.discardWatches).outputs = s.outputs := rfl
@[simp] theorem discardWatches_cfmRef : (s.discardWatches).cfmRef = s.cfmRef := rfl
@[simp] theorem discardWatches_events : (s.discardWatches).events = s.events := rfl
@[simp] theorem discardWatches_control : (s.discardWatches).control = s.control := rfl
@[simp] theorem discardWatches_host : (s.discardWatches).host = s.host := rfl
@[simp] theorem discardWatches_globals : (s.discardWatches).globals = s.globals := rfl
@[simp] theorem discardWatches_readData : (s.discardWatches).readData = s.readData := rfl
@[simp] theorem discardWatches_choices : (s.discardWatches).choices = s.choices := rfl
@[simp] theorem discardWatches_pending : (s.discardWatches).pending = s.pending := rfl

/-! #### takeFaultActions -/

@[simp] theorem takeFaultActions_power : (s.takeFaultActions).power = s.power := by simp only [State.takeFaultActions]
@[simp] theorem takeFaultActions_pins : (s.takeFaultActions).pins = s.pins := by simp only [State.takeFaultActions]
@[simp] theorem takeFaultActions_position : (s.takeFaultActions).position = s.position := by simp only [State.takeFaultActions]
@[simp] theorem takeFaultActions_lanes : (s.takeFaultActions).lanes = s.lanes := by simp only [State.takeFaultActions]
@[simp] theorem takeFaultActions_queue : (s.takeFaultActions).queue = s.queue := by simp only [State.takeFaultActions]
@[simp] theorem takeFaultActions_list : (s.takeFaultActions).list = s.list := by simp only [State.takeFaultActions]
@[simp] theorem takeFaultActions_stations : (s.takeFaultActions).stations = s.stations := by simp only [State.takeFaultActions]
@[simp] theorem takeFaultActions_cfmRef : (s.takeFaultActions).cfmRef = s.cfmRef := by simp only [State.takeFaultActions]
@[simp] theorem takeFaultActions_events : (s.takeFaultActions).events = s.events := by simp only [State.takeFaultActions]
@[simp] theorem takeFaultActions_control : (s.takeFaultActions).control = s.control := by simp only [State.takeFaultActions]
@[simp] theorem takeFaultActions_host : (s.takeFaultActions).host = s.host := by simp only [State.takeFaultActions]
@[simp] theorem takeFaultActions_globals : (s.takeFaultActions).globals = s.globals := by simp only [State.takeFaultActions]
@[simp] theorem takeFaultActions_readData : (s.takeFaultActions).readData = s.readData := by simp only [State.takeFaultActions]
@[simp] theorem takeFaultActions_choices : (s.takeFaultActions).choices = s.choices := by simp only [State.takeFaultActions]
@[simp] theorem takeFaultActions_pending : (s.takeFaultActions).pending = s.pending := by simp only [State.takeFaultActions]

/-! #### endPulse -/

@[simp] theorem endPulse_power (n : StationId) : (s.endPulse n).power = s.power := rfl
@[simp] theorem endPulse_pins (n : StationId) : (s.endPulse n).pins = s.pins := rfl
@[simp] theorem endPulse_position (n : StationId) : (s.endPulse n).position = s.position := rfl
@[simp] theorem endPulse_lanes (n : StationId) : (s.endPulse n).lanes = s.lanes := rfl
@[simp] theorem endPulse_queue (n : StationId) : (s.endPulse n).queue = s.queue := rfl
@[simp] theorem endPulse_list (n : StationId) : (s.endPulse n).list = s.list := rfl
@[simp] theorem endPulse_outputs (n : StationId) : (s.endPulse n).outputs = s.outputs := rfl
@[simp] theorem endPulse_cfmRef (n : StationId) : (s.endPulse n).cfmRef = s.cfmRef := rfl
@[simp] theorem endPulse_events (n : StationId) : (s.endPulse n).events = s.events := rfl
@[simp] theorem endPulse_control (n : StationId) : (s.endPulse n).control = s.control := rfl
@[simp] theorem endPulse_host (n : StationId) : (s.endPulse n).host = s.host := rfl
@[simp] theorem endPulse_globals (n : StationId) : (s.endPulse n).globals = s.globals := rfl
@[simp] theorem endPulse_readData (n : StationId) : (s.endPulse n).readData = s.readData := rfl
@[simp] theorem endPulse_choices (n : StationId) : (s.endPulse n).choices = s.choices := rfl
@[simp] theorem endPulse_pending (n : StationId) : (s.endPulse n).pending = s.pending := rfl

/-! #### loadPulse -/

@[simp] theorem loadPulse_power (n : StationId) : (s.loadPulse n).power = s.power := rfl
@[simp] theorem loadPulse_pins (n : StationId) : (s.loadPulse n).pins = s.pins := rfl
@[simp] theorem loadPulse_position (n : StationId) : (s.loadPulse n).position = s.position := rfl
@[simp] theorem loadPulse_lanes (n : StationId) : (s.loadPulse n).lanes = s.lanes := rfl
@[simp] theorem loadPulse_queue (n : StationId) : (s.loadPulse n).queue = s.queue := rfl
@[simp] theorem loadPulse_list (n : StationId) : (s.loadPulse n).list = s.list := rfl
@[simp] theorem loadPulse_outputs (n : StationId) : (s.loadPulse n).outputs = s.outputs := rfl
@[simp] theorem loadPulse_cfmRef (n : StationId) : (s.loadPulse n).cfmRef = s.cfmRef := rfl
@[simp] theorem loadPulse_events (n : StationId) : (s.loadPulse n).events = s.events := rfl
@[simp] theorem loadPulse_control (n : StationId) : (s.loadPulse n).control = s.control := rfl
@[simp] theorem loadPulse_host (n : StationId) : (s.loadPulse n).host = s.host := rfl
@[simp] theorem loadPulse_globals (n : StationId) : (s.loadPulse n).globals = s.globals := rfl
@[simp] theorem loadPulse_readData (n : StationId) : (s.loadPulse n).readData = s.readData := rfl
@[simp] theorem loadPulse_choices (n : StationId) : (s.loadPulse n).choices = s.choices := rfl
@[simp] theorem loadPulse_pending (n : StationId) : (s.loadPulse n).pending = s.pending := rfl

/-! #### takePulseEnd -/

@[simp] theorem takePulseEnd_power (n : StationId) : (s.takePulseEnd n).power = s.power := rfl
@[simp] theorem takePulseEnd_pins (n : StationId) : (s.takePulseEnd n).pins = s.pins := rfl
@[simp] theorem takePulseEnd_position (n : StationId) : (s.takePulseEnd n).position = s.position := rfl
@[simp] theorem takePulseEnd_lanes (n : StationId) : (s.takePulseEnd n).lanes = s.lanes := rfl
@[simp] theorem takePulseEnd_queue (n : StationId) : (s.takePulseEnd n).queue = s.queue := rfl
@[simp] theorem takePulseEnd_list (n : StationId) : (s.takePulseEnd n).list = s.list := rfl
@[simp] theorem takePulseEnd_outputs (n : StationId) : (s.takePulseEnd n).outputs = s.outputs := rfl
@[simp] theorem takePulseEnd_cfmRef (n : StationId) : (s.takePulseEnd n).cfmRef = s.cfmRef := rfl
@[simp] theorem takePulseEnd_events (n : StationId) : (s.takePulseEnd n).events = s.events := rfl
@[simp] theorem takePulseEnd_control (n : StationId) : (s.takePulseEnd n).control = s.control := rfl
@[simp] theorem takePulseEnd_host (n : StationId) : (s.takePulseEnd n).host = s.host := rfl
@[simp] theorem takePulseEnd_globals (n : StationId) : (s.takePulseEnd n).globals = s.globals := rfl
@[simp] theorem takePulseEnd_readData (n : StationId) : (s.takePulseEnd n).readData = s.readData := rfl
@[simp] theorem takePulseEnd_choices (n : StationId) : (s.takePulseEnd n).choices = s.choices := rfl
@[simp] theorem takePulseEnd_pending (n : StationId) : (s.takePulseEnd n).pending = s.pending := rfl

/-! #### appendWatch -/

@[simp] theorem appendWatch_power (n : StationId) (tag : Tag) (l : LaneId) : (s.appendWatch n tag l).power = s.power := rfl
@[simp] theorem appendWatch_pins (n : StationId) (tag : Tag) (l : LaneId) : (s.appendWatch n tag l).pins = s.pins := rfl
@[simp] theorem appendWatch_position (n : StationId) (tag : Tag) (l : LaneId) : (s.appendWatch n tag l).position = s.position := rfl
@[simp] theorem appendWatch_lanes (n : StationId) (tag : Tag) (l : LaneId) : (s.appendWatch n tag l).lanes = s.lanes := rfl
@[simp] theorem appendWatch_queue (n : StationId) (tag : Tag) (l : LaneId) : (s.appendWatch n tag l).queue = s.queue := rfl
@[simp] theorem appendWatch_list (n : StationId) (tag : Tag) (l : LaneId) : (s.appendWatch n tag l).list = s.list := rfl
@[simp] theorem appendWatch_outputs (n : StationId) (tag : Tag) (l : LaneId) : (s.appendWatch n tag l).outputs = s.outputs := rfl
@[simp] theorem appendWatch_cfmRef (n : StationId) (tag : Tag) (l : LaneId) : (s.appendWatch n tag l).cfmRef = s.cfmRef := rfl
@[simp] theorem appendWatch_events (n : StationId) (tag : Tag) (l : LaneId) : (s.appendWatch n tag l).events = s.events := rfl
@[simp] theorem appendWatch_control (n : StationId) (tag : Tag) (l : LaneId) : (s.appendWatch n tag l).control = s.control := rfl
@[simp] theorem appendWatch_host (n : StationId) (tag : Tag) (l : LaneId) : (s.appendWatch n tag l).host = s.host := rfl
@[simp] theorem appendWatch_globals (n : StationId) (tag : Tag) (l : LaneId) : (s.appendWatch n tag l).globals = s.globals := rfl
@[simp] theorem appendWatch_readData (n : StationId) (tag : Tag) (l : LaneId) : (s.appendWatch n tag l).readData = s.readData := rfl
@[simp] theorem appendWatch_choices (n : StationId) (tag : Tag) (l : LaneId) : (s.appendWatch n tag l).choices = s.choices := rfl
@[simp] theorem appendWatch_pending (n : StationId) (tag : Tag) (l : LaneId) : (s.appendWatch n tag l).pending = s.pending := rfl

/-! #### takeConfirm -/

@[simp] theorem takeConfirm_power (n : StationId) : (s.takeConfirm n).power = s.power := rfl
@[simp] theorem takeConfirm_pins (n : StationId) : (s.takeConfirm n).pins = s.pins := rfl
@[simp] theorem takeConfirm_position (n : StationId) : (s.takeConfirm n).position = s.position := rfl
@[simp] theorem takeConfirm_lanes (n : StationId) : (s.takeConfirm n).lanes = s.lanes := rfl
@[simp] theorem takeConfirm_queue (n : StationId) : (s.takeConfirm n).queue = s.queue := rfl
@[simp] theorem takeConfirm_list (n : StationId) : (s.takeConfirm n).list = s.list := rfl
@[simp] theorem takeConfirm_outputs (n : StationId) : (s.takeConfirm n).outputs = s.outputs := rfl
@[simp] theorem takeConfirm_cfmRef (n : StationId) : (s.takeConfirm n).cfmRef = s.cfmRef := rfl
@[simp] theorem takeConfirm_events (n : StationId) : (s.takeConfirm n).events = s.events := rfl
@[simp] theorem takeConfirm_control (n : StationId) : (s.takeConfirm n).control = s.control := rfl
@[simp] theorem takeConfirm_host (n : StationId) : (s.takeConfirm n).host = s.host := rfl
@[simp] theorem takeConfirm_globals (n : StationId) : (s.takeConfirm n).globals = s.globals := rfl
@[simp] theorem takeConfirm_readData (n : StationId) : (s.takeConfirm n).readData = s.readData := rfl
@[simp] theorem takeConfirm_choices (n : StationId) : (s.takeConfirm n).choices = s.choices := rfl
@[simp] theorem takeConfirm_pending (n : StationId) : (s.takeConfirm n).pending = s.pending := rfl

/-! #### disableStation -/

@[simp] theorem disableStation_power (n : StationId) : (s.disableStation n).power = s.power := rfl
@[simp] theorem disableStation_pins (n : StationId) : (s.disableStation n).pins = s.pins := rfl
@[simp] theorem disableStation_position (n : StationId) : (s.disableStation n).position = s.position := rfl
@[simp] theorem disableStation_lanes (n : StationId) : (s.disableStation n).lanes = s.lanes := rfl
@[simp] theorem disableStation_queue (n : StationId) : (s.disableStation n).queue = s.queue := rfl
@[simp] theorem disableStation_outputs (n : StationId) : (s.disableStation n).outputs = s.outputs := rfl
@[simp] theorem disableStation_cfmRef (n : StationId) : (s.disableStation n).cfmRef = s.cfmRef := rfl
@[simp] theorem disableStation_events (n : StationId) : (s.disableStation n).events = s.events := rfl
@[simp] theorem disableStation_control (n : StationId) : (s.disableStation n).control = s.control := rfl
@[simp] theorem disableStation_host (n : StationId) : (s.disableStation n).host = s.host := rfl
@[simp] theorem disableStation_globals (n : StationId) : (s.disableStation n).globals = s.globals := rfl
@[simp] theorem disableStation_readData (n : StationId) : (s.disableStation n).readData = s.readData := rfl
@[simp] theorem disableStation_choices (n : StationId) : (s.disableStation n).choices = s.choices := rfl
@[simp] theorem disableStation_pending (n : StationId) : (s.disableStation n).pending = s.pending := rfl

/-! #### requestHalt -/

@[simp] theorem requestHalt_power (c : Cause) : (s.requestHalt c).power = s.power := rfl
@[simp] theorem requestHalt_pins (c : Cause) : (s.requestHalt c).pins = s.pins := rfl
@[simp] theorem requestHalt_position (c : Cause) : (s.requestHalt c).position = s.position := rfl
@[simp] theorem requestHalt_lanes (c : Cause) : (s.requestHalt c).lanes = s.lanes := rfl
@[simp] theorem requestHalt_queue (c : Cause) : (s.requestHalt c).queue = s.queue := rfl
@[simp] theorem requestHalt_list (c : Cause) : (s.requestHalt c).list = s.list := rfl
@[simp] theorem requestHalt_stations (c : Cause) : (s.requestHalt c).stations = s.stations := rfl
@[simp] theorem requestHalt_outputs (c : Cause) : (s.requestHalt c).outputs = s.outputs := rfl
@[simp] theorem requestHalt_cfmRef (c : Cause) : (s.requestHalt c).cfmRef = s.cfmRef := rfl
@[simp] theorem requestHalt_events (c : Cause) : (s.requestHalt c).events = s.events := rfl
@[simp] theorem requestHalt_host (c : Cause) : (s.requestHalt c).host = s.host := rfl
@[simp] theorem requestHalt_globals (c : Cause) : (s.requestHalt c).globals = s.globals := rfl
@[simp] theorem requestHalt_readData (c : Cause) : (s.requestHalt c).readData = s.readData := rfl
@[simp] theorem requestHalt_choices (c : Cause) : (s.requestHalt c).choices = s.choices := rfl
@[simp] theorem requestHalt_pending (c : Cause) : (s.requestHalt c).pending = s.pending := rfl

/-! #### withRequests -/

@[simp] theorem withRequests_power (cs : List Cause) : (s.withRequests cs).power = s.power := rfl
@[simp] theorem withRequests_pins (cs : List Cause) : (s.withRequests cs).pins = s.pins := rfl
@[simp] theorem withRequests_position (cs : List Cause) : (s.withRequests cs).position = s.position := rfl
@[simp] theorem withRequests_lanes (cs : List Cause) : (s.withRequests cs).lanes = s.lanes := rfl
@[simp] theorem withRequests_queue (cs : List Cause) : (s.withRequests cs).queue = s.queue := rfl
@[simp] theorem withRequests_list (cs : List Cause) : (s.withRequests cs).list = s.list := rfl
@[simp] theorem withRequests_stations (cs : List Cause) : (s.withRequests cs).stations = s.stations := rfl
@[simp] theorem withRequests_outputs (cs : List Cause) : (s.withRequests cs).outputs = s.outputs := rfl
@[simp] theorem withRequests_cfmRef (cs : List Cause) : (s.withRequests cs).cfmRef = s.cfmRef := rfl
@[simp] theorem withRequests_events (cs : List Cause) : (s.withRequests cs).events = s.events := rfl
@[simp] theorem withRequests_host (cs : List Cause) : (s.withRequests cs).host = s.host := rfl
@[simp] theorem withRequests_globals (cs : List Cause) : (s.withRequests cs).globals = s.globals := rfl
@[simp] theorem withRequests_readData (cs : List Cause) : (s.withRequests cs).readData = s.readData := rfl
@[simp] theorem withRequests_choices (cs : List Cause) : (s.withRequests cs).choices = s.choices := rfl
@[simp] theorem withRequests_pending (cs : List Cause) : (s.withRequests cs).pending = s.pending := rfl

/-! #### sampleHld -/

@[simp] theorem sampleHld_power (a : Bool) : (s.sampleHld a).power = s.power := rfl
@[simp] theorem sampleHld_pins (a : Bool) : (s.sampleHld a).pins = s.pins := rfl
@[simp] theorem sampleHld_position (a : Bool) : (s.sampleHld a).position = s.position := rfl
@[simp] theorem sampleHld_lanes (a : Bool) : (s.sampleHld a).lanes = s.lanes := rfl
@[simp] theorem sampleHld_queue (a : Bool) : (s.sampleHld a).queue = s.queue := rfl
@[simp] theorem sampleHld_list (a : Bool) : (s.sampleHld a).list = s.list := rfl
@[simp] theorem sampleHld_stations (a : Bool) : (s.sampleHld a).stations = s.stations := rfl
@[simp] theorem sampleHld_outputs (a : Bool) : (s.sampleHld a).outputs = s.outputs := rfl
@[simp] theorem sampleHld_cfmRef (a : Bool) : (s.sampleHld a).cfmRef = s.cfmRef := rfl
@[simp] theorem sampleHld_events (a : Bool) : (s.sampleHld a).events = s.events := rfl
@[simp] theorem sampleHld_host (a : Bool) : (s.sampleHld a).host = s.host := rfl
@[simp] theorem sampleHld_globals (a : Bool) : (s.sampleHld a).globals = s.globals := rfl
@[simp] theorem sampleHld_readData (a : Bool) : (s.sampleHld a).readData = s.readData := rfl
@[simp] theorem sampleHld_choices (a : Bool) : (s.sampleHld a).choices = s.choices := rfl
@[simp] theorem sampleHld_pending (a : Bool) : (s.sampleHld a).pending = s.pending := rfl

/-! #### setPositions -/

@[simp] theorem setPositions_power (c p : Pos) : (s.setPositions c p).power = s.power := rfl
@[simp] theorem setPositions_pins (c p : Pos) : (s.setPositions c p).pins = s.pins := rfl
@[simp] theorem setPositions_lanes (c p : Pos) : (s.setPositions c p).lanes = s.lanes := rfl
@[simp] theorem setPositions_queue (c p : Pos) : (s.setPositions c p).queue = s.queue := rfl
@[simp] theorem setPositions_list (c p : Pos) : (s.setPositions c p).list = s.list := rfl
@[simp] theorem setPositions_stations (c p : Pos) : (s.setPositions c p).stations = s.stations := rfl
@[simp] theorem setPositions_outputs (c p : Pos) : (s.setPositions c p).outputs = s.outputs := rfl
@[simp] theorem setPositions_cfmRef (c p : Pos) : (s.setPositions c p).cfmRef = s.cfmRef := rfl
@[simp] theorem setPositions_events (c p : Pos) : (s.setPositions c p).events = s.events := rfl
@[simp] theorem setPositions_control (c p : Pos) : (s.setPositions c p).control = s.control := rfl
@[simp] theorem setPositions_host (c p : Pos) : (s.setPositions c p).host = s.host := rfl
@[simp] theorem setPositions_globals (c p : Pos) : (s.setPositions c p).globals = s.globals := rfl
@[simp] theorem setPositions_readData (c p : Pos) : (s.setPositions c p).readData = s.readData := rfl
@[simp] theorem setPositions_choices (c p : Pos) : (s.setPositions c p).choices = s.choices := rfl
@[simp] theorem setPositions_pending (c p : Pos) : (s.setPositions c p).pending = s.pending := rfl

/-! #### setReference -/

@[simp] theorem setReference_power (a b : Level) : (s.setReference a b).power = s.power := rfl
@[simp] theorem setReference_pins (a b : Level) : (s.setReference a b).pins = s.pins := rfl
@[simp] theorem setReference_lanes (a b : Level) : (s.setReference a b).lanes = s.lanes := rfl
@[simp] theorem setReference_queue (a b : Level) : (s.setReference a b).queue = s.queue := rfl
@[simp] theorem setReference_list (a b : Level) : (s.setReference a b).list = s.list := rfl
@[simp] theorem setReference_stations (a b : Level) : (s.setReference a b).stations = s.stations := rfl
@[simp] theorem setReference_outputs (a b : Level) : (s.setReference a b).outputs = s.outputs := rfl
@[simp] theorem setReference_cfmRef (a b : Level) : (s.setReference a b).cfmRef = s.cfmRef := rfl
@[simp] theorem setReference_events (a b : Level) : (s.setReference a b).events = s.events := rfl
@[simp] theorem setReference_control (a b : Level) : (s.setReference a b).control = s.control := rfl
@[simp] theorem setReference_host (a b : Level) : (s.setReference a b).host = s.host := rfl
@[simp] theorem setReference_globals (a b : Level) : (s.setReference a b).globals = s.globals := rfl
@[simp] theorem setReference_readData (a b : Level) : (s.setReference a b).readData = s.readData := rfl
@[simp] theorem setReference_choices (a b : Level) : (s.setReference a b).choices = s.choices := rfl
@[simp] theorem setReference_pending (a b : Level) : (s.setReference a b).pending = s.pending := rfl

/-! #### moveInSetup -/

@[simp] theorem moveInSetup_power (c : Pos) : (s.moveInSetup c).power = s.power := rfl
@[simp] theorem moveInSetup_pins (c : Pos) : (s.moveInSetup c).pins = s.pins := rfl
@[simp] theorem moveInSetup_lanes (c : Pos) : (s.moveInSetup c).lanes = s.lanes := rfl
@[simp] theorem moveInSetup_queue (c : Pos) : (s.moveInSetup c).queue = s.queue := rfl
@[simp] theorem moveInSetup_stations (c : Pos) : (s.moveInSetup c).stations = s.stations := rfl
@[simp] theorem moveInSetup_outputs (c : Pos) : (s.moveInSetup c).outputs = s.outputs := rfl
@[simp] theorem moveInSetup_cfmRef (c : Pos) : (s.moveInSetup c).cfmRef = s.cfmRef := rfl
@[simp] theorem moveInSetup_events (c : Pos) : (s.moveInSetup c).events = s.events := rfl
@[simp] theorem moveInSetup_control (c : Pos) : (s.moveInSetup c).control = s.control := rfl
@[simp] theorem moveInSetup_host (c : Pos) : (s.moveInSetup c).host = s.host := rfl
@[simp] theorem moveInSetup_globals (c : Pos) : (s.moveInSetup c).globals = s.globals := rfl
@[simp] theorem moveInSetup_readData (c : Pos) : (s.moveInSetup c).readData = s.readData := rfl
@[simp] theorem moveInSetup_choices (c : Pos) : (s.moveInSetup c).choices = s.choices := rfl
@[simp] theorem moveInSetup_pending (c : Pos) : (s.moveInSetup c).pending = s.pending := rfl

/-! #### encoderError -/

@[simp] theorem encoderError_power : (s.encoderError).power = s.power := rfl
@[simp] theorem encoderError_pins : (s.encoderError).pins = s.pins := rfl
@[simp] theorem encoderError_lanes : (s.encoderError).lanes = s.lanes := rfl
@[simp] theorem encoderError_queue : (s.encoderError).queue = s.queue := rfl
@[simp] theorem encoderError_list : (s.encoderError).list = s.list := rfl
@[simp] theorem encoderError_stations : (s.encoderError).stations = s.stations := rfl
@[simp] theorem encoderError_outputs : (s.encoderError).outputs = s.outputs := rfl
@[simp] theorem encoderError_cfmRef : (s.encoderError).cfmRef = s.cfmRef := rfl
@[simp] theorem encoderError_events : (s.encoderError).events = s.events := rfl
@[simp] theorem encoderError_host : (s.encoderError).host = s.host := rfl
@[simp] theorem encoderError_globals : (s.encoderError).globals = s.globals := rfl
@[simp] theorem encoderError_readData : (s.encoderError).readData = s.readData := rfl
@[simp] theorem encoderError_choices : (s.encoderError).choices = s.choices := rfl
@[simp] theorem encoderError_pending : (s.encoderError).pending = s.pending := rfl

/-! #### setHld -/

@[simp] theorem setHld_power (v : Level) : (s.setHld v).power = s.power := rfl
@[simp] theorem setHld_position (v : Level) : (s.setHld v).position = s.position := rfl
@[simp] theorem setHld_lanes (v : Level) : (s.setHld v).lanes = s.lanes := rfl
@[simp] theorem setHld_queue (v : Level) : (s.setHld v).queue = s.queue := rfl
@[simp] theorem setHld_list (v : Level) : (s.setHld v).list = s.list := rfl
@[simp] theorem setHld_stations (v : Level) : (s.setHld v).stations = s.stations := rfl
@[simp] theorem setHld_outputs (v : Level) : (s.setHld v).outputs = s.outputs := rfl
@[simp] theorem setHld_cfmRef (v : Level) : (s.setHld v).cfmRef = s.cfmRef := rfl
@[simp] theorem setHld_events (v : Level) : (s.setHld v).events = s.events := rfl
@[simp] theorem setHld_control (v : Level) : (s.setHld v).control = s.control := rfl
@[simp] theorem setHld_host (v : Level) : (s.setHld v).host = s.host := rfl
@[simp] theorem setHld_globals (v : Level) : (s.setHld v).globals = s.globals := rfl
@[simp] theorem setHld_readData (v : Level) : (s.setHld v).readData = s.readData := rfl
@[simp] theorem setHld_choices (v : Level) : (s.setHld v).choices = s.choices := rfl
@[simp] theorem setHld_pending (v : Level) : (s.setHld v).pending = s.pending := rfl

/-! #### setEncoder -/

@[simp] theorem setEncoder_power (a b : Level) : (s.setEncoder a b).power = s.power := rfl
@[simp] theorem setEncoder_position (a b : Level) : (s.setEncoder a b).position = s.position := rfl
@[simp] theorem setEncoder_lanes (a b : Level) : (s.setEncoder a b).lanes = s.lanes := rfl
@[simp] theorem setEncoder_queue (a b : Level) : (s.setEncoder a b).queue = s.queue := rfl
@[simp] theorem setEncoder_list (a b : Level) : (s.setEncoder a b).list = s.list := rfl
@[simp] theorem setEncoder_stations (a b : Level) : (s.setEncoder a b).stations = s.stations := rfl
@[simp] theorem setEncoder_outputs (a b : Level) : (s.setEncoder a b).outputs = s.outputs := rfl
@[simp] theorem setEncoder_cfmRef (a b : Level) : (s.setEncoder a b).cfmRef = s.cfmRef := rfl
@[simp] theorem setEncoder_events (a b : Level) : (s.setEncoder a b).events = s.events := rfl
@[simp] theorem setEncoder_control (a b : Level) : (s.setEncoder a b).control = s.control := rfl
@[simp] theorem setEncoder_host (a b : Level) : (s.setEncoder a b).host = s.host := rfl
@[simp] theorem setEncoder_globals (a b : Level) : (s.setEncoder a b).globals = s.globals := rfl
@[simp] theorem setEncoder_readData (a b : Level) : (s.setEncoder a b).readData = s.readData := rfl
@[simp] theorem setEncoder_choices (a b : Level) : (s.setEncoder a b).choices = s.choices := rfl
@[simp] theorem setEncoder_pending (a b : Level) : (s.setEncoder a b).pending = s.pending := rfl

/-! #### setDet -/

@[simp] theorem setDet_power (l : LaneId) (v : Level) : (s.setDet l v).power = s.power := rfl
@[simp] theorem setDet_position (l : LaneId) (v : Level) : (s.setDet l v).position = s.position := rfl
@[simp] theorem setDet_lanes (l : LaneId) (v : Level) : (s.setDet l v).lanes = s.lanes := rfl
@[simp] theorem setDet_queue (l : LaneId) (v : Level) : (s.setDet l v).queue = s.queue := rfl
@[simp] theorem setDet_list (l : LaneId) (v : Level) : (s.setDet l v).list = s.list := rfl
@[simp] theorem setDet_stations (l : LaneId) (v : Level) : (s.setDet l v).stations = s.stations := rfl
@[simp] theorem setDet_outputs (l : LaneId) (v : Level) : (s.setDet l v).outputs = s.outputs := rfl
@[simp] theorem setDet_cfmRef (l : LaneId) (v : Level) : (s.setDet l v).cfmRef = s.cfmRef := rfl
@[simp] theorem setDet_events (l : LaneId) (v : Level) : (s.setDet l v).events = s.events := rfl
@[simp] theorem setDet_control (l : LaneId) (v : Level) : (s.setDet l v).control = s.control := rfl
@[simp] theorem setDet_host (l : LaneId) (v : Level) : (s.setDet l v).host = s.host := rfl
@[simp] theorem setDet_globals (l : LaneId) (v : Level) : (s.setDet l v).globals = s.globals := rfl
@[simp] theorem setDet_readData (l : LaneId) (v : Level) : (s.setDet l v).readData = s.readData := rfl
@[simp] theorem setDet_choices (l : LaneId) (v : Level) : (s.setDet l v).choices = s.choices := rfl
@[simp] theorem setDet_pending (l : LaneId) (v : Level) : (s.setDet l v).pending = s.pending := rfl

/-! #### setCfm -/

@[simp] theorem setCfm_power (i : InputId) (v : Level) : (s.setCfm i v).power = s.power := rfl
@[simp] theorem setCfm_position (i : InputId) (v : Level) : (s.setCfm i v).position = s.position := rfl
@[simp] theorem setCfm_lanes (i : InputId) (v : Level) : (s.setCfm i v).lanes = s.lanes := rfl
@[simp] theorem setCfm_queue (i : InputId) (v : Level) : (s.setCfm i v).queue = s.queue := rfl
@[simp] theorem setCfm_list (i : InputId) (v : Level) : (s.setCfm i v).list = s.list := rfl
@[simp] theorem setCfm_stations (i : InputId) (v : Level) : (s.setCfm i v).stations = s.stations := rfl
@[simp] theorem setCfm_outputs (i : InputId) (v : Level) : (s.setCfm i v).outputs = s.outputs := rfl
@[simp] theorem setCfm_cfmRef (i : InputId) (v : Level) : (s.setCfm i v).cfmRef = s.cfmRef := rfl
@[simp] theorem setCfm_events (i : InputId) (v : Level) : (s.setCfm i v).events = s.events := rfl
@[simp] theorem setCfm_control (i : InputId) (v : Level) : (s.setCfm i v).control = s.control := rfl
@[simp] theorem setCfm_host (i : InputId) (v : Level) : (s.setCfm i v).host = s.host := rfl
@[simp] theorem setCfm_globals (i : InputId) (v : Level) : (s.setCfm i v).globals = s.globals := rfl
@[simp] theorem setCfm_readData (i : InputId) (v : Level) : (s.setCfm i v).readData = s.readData := rfl
@[simp] theorem setCfm_choices (i : InputId) (v : Level) : (s.setCfm i v).choices = s.choices := rfl
@[simp] theorem setCfm_pending (i : InputId) (v : Level) : (s.setCfm i v).pending = s.pending := rfl

/-! #### sampleCfm -/

@[simp] theorem sampleCfm_power (i : InputId) (v : Level) : (s.sampleCfm i v).power = s.power := rfl
@[simp] theorem sampleCfm_pins (i : InputId) (v : Level) : (s.sampleCfm i v).pins = s.pins := rfl
@[simp] theorem sampleCfm_position (i : InputId) (v : Level) : (s.sampleCfm i v).position = s.position := rfl
@[simp] theorem sampleCfm_lanes (i : InputId) (v : Level) : (s.sampleCfm i v).lanes = s.lanes := rfl
@[simp] theorem sampleCfm_queue (i : InputId) (v : Level) : (s.sampleCfm i v).queue = s.queue := rfl
@[simp] theorem sampleCfm_list (i : InputId) (v : Level) : (s.sampleCfm i v).list = s.list := rfl
@[simp] theorem sampleCfm_stations (i : InputId) (v : Level) : (s.sampleCfm i v).stations = s.stations := rfl
@[simp] theorem sampleCfm_outputs (i : InputId) (v : Level) : (s.sampleCfm i v).outputs = s.outputs := rfl
@[simp] theorem sampleCfm_events (i : InputId) (v : Level) : (s.sampleCfm i v).events = s.events := rfl
@[simp] theorem sampleCfm_control (i : InputId) (v : Level) : (s.sampleCfm i v).control = s.control := rfl
@[simp] theorem sampleCfm_host (i : InputId) (v : Level) : (s.sampleCfm i v).host = s.host := rfl
@[simp] theorem sampleCfm_globals (i : InputId) (v : Level) : (s.sampleCfm i v).globals = s.globals := rfl
@[simp] theorem sampleCfm_readData (i : InputId) (v : Level) : (s.sampleCfm i v).readData = s.readData := rfl
@[simp] theorem sampleCfm_choices (i : InputId) (v : Level) : (s.sampleCfm i v).choices = s.choices := rfl
@[simp] theorem sampleCfm_pending (i : InputId) (v : Level) : (s.sampleCfm i v).pending = s.pending := rfl

/-! #### setResetN -/

@[simp] theorem setResetN_power (v : Level) : (s.setResetN v).power = s.power := rfl
@[simp] theorem setResetN_position (v : Level) : (s.setResetN v).position = s.position := rfl
@[simp] theorem setResetN_lanes (v : Level) : (s.setResetN v).lanes = s.lanes := rfl
@[simp] theorem setResetN_queue (v : Level) : (s.setResetN v).queue = s.queue := rfl
@[simp] theorem setResetN_list (v : Level) : (s.setResetN v).list = s.list := rfl
@[simp] theorem setResetN_stations (v : Level) : (s.setResetN v).stations = s.stations := rfl
@[simp] theorem setResetN_outputs (v : Level) : (s.setResetN v).outputs = s.outputs := rfl
@[simp] theorem setResetN_cfmRef (v : Level) : (s.setResetN v).cfmRef = s.cfmRef := rfl
@[simp] theorem setResetN_events (v : Level) : (s.setResetN v).events = s.events := rfl
@[simp] theorem setResetN_control (v : Level) : (s.setResetN v).control = s.control := rfl
@[simp] theorem setResetN_host (v : Level) : (s.setResetN v).host = s.host := rfl
@[simp] theorem setResetN_globals (v : Level) : (s.setResetN v).globals = s.globals := rfl
@[simp] theorem setResetN_readData (v : Level) : (s.setResetN v).readData = s.readData := rfl
@[simp] theorem setResetN_choices (v : Level) : (s.setResetN v).choices = s.choices := rfl
@[simp] theorem setResetN_pending (v : Level) : (s.setResetN v).pending = s.pending := rfl

/-! #### answerRead -/

@[simp] theorem answerRead_power (w : Word) : (s.answerRead w).power = s.power := rfl
@[simp] theorem answerRead_pins (w : Word) : (s.answerRead w).pins = s.pins := rfl
@[simp] theorem answerRead_position (w : Word) : (s.answerRead w).position = s.position := rfl
@[simp] theorem answerRead_lanes (w : Word) : (s.answerRead w).lanes = s.lanes := rfl
@[simp] theorem answerRead_queue (w : Word) : (s.answerRead w).queue = s.queue := rfl
@[simp] theorem answerRead_list (w : Word) : (s.answerRead w).list = s.list := rfl
@[simp] theorem answerRead_stations (w : Word) : (s.answerRead w).stations = s.stations := rfl
@[simp] theorem answerRead_outputs (w : Word) : (s.answerRead w).outputs = s.outputs := rfl
@[simp] theorem answerRead_cfmRef (w : Word) : (s.answerRead w).cfmRef = s.cfmRef := rfl
@[simp] theorem answerRead_events (w : Word) : (s.answerRead w).events = s.events := rfl
@[simp] theorem answerRead_control (w : Word) : (s.answerRead w).control = s.control := rfl
@[simp] theorem answerRead_host (w : Word) : (s.answerRead w).host = s.host := rfl
@[simp] theorem answerRead_globals (w : Word) : (s.answerRead w).globals = s.globals := rfl
@[simp] theorem answerRead_choices (w : Word) : (s.answerRead w).choices = s.choices := rfl
@[simp] theorem answerRead_pending (w : Word) : (s.answerRead w).pending = s.pending := rfl

/-! #### acceptCommand -/

@[simp] theorem acceptCommand_power (w : Word) : (s.acceptCommand w).power = s.power := rfl
@[simp] theorem acceptCommand_pins (w : Word) : (s.acceptCommand w).pins = s.pins := rfl
@[simp] theorem acceptCommand_position (w : Word) : (s.acceptCommand w).position = s.position := rfl
@[simp] theorem acceptCommand_lanes (w : Word) : (s.acceptCommand w).lanes = s.lanes := rfl
@[simp] theorem acceptCommand_queue (w : Word) : (s.acceptCommand w).queue = s.queue := rfl
@[simp] theorem acceptCommand_list (w : Word) : (s.acceptCommand w).list = s.list := rfl
@[simp] theorem acceptCommand_stations (w : Word) : (s.acceptCommand w).stations = s.stations := rfl
@[simp] theorem acceptCommand_outputs (w : Word) : (s.acceptCommand w).outputs = s.outputs := rfl
@[simp] theorem acceptCommand_cfmRef (w : Word) : (s.acceptCommand w).cfmRef = s.cfmRef := rfl
@[simp] theorem acceptCommand_events (w : Word) : (s.acceptCommand w).events = s.events := rfl
@[simp] theorem acceptCommand_control (w : Word) : (s.acceptCommand w).control = s.control := rfl
@[simp] theorem acceptCommand_globals (w : Word) : (s.acceptCommand w).globals = s.globals := rfl
@[simp] theorem acceptCommand_readData (w : Word) : (s.acceptCommand w).readData = s.readData := rfl
@[simp] theorem acceptCommand_choices (w : Word) : (s.acceptCommand w).choices = s.choices := rfl
@[simp] theorem acceptCommand_pending (w : Word) : (s.acceptCommand w).pending = s.pending := rfl

/-! #### writeIntStatus -/

@[simp] theorem writeIntStatus_power (w : Word) : (s.writeIntStatus w).power = s.power := rfl
@[simp] theorem writeIntStatus_pins (w : Word) : (s.writeIntStatus w).pins = s.pins := rfl
@[simp] theorem writeIntStatus_position (w : Word) : (s.writeIntStatus w).position = s.position := rfl
@[simp] theorem writeIntStatus_lanes (w : Word) : (s.writeIntStatus w).lanes = s.lanes := rfl
@[simp] theorem writeIntStatus_queue (w : Word) : (s.writeIntStatus w).queue = s.queue := rfl
@[simp] theorem writeIntStatus_list (w : Word) : (s.writeIntStatus w).list = s.list := rfl
@[simp] theorem writeIntStatus_stations (w : Word) : (s.writeIntStatus w).stations = s.stations := rfl
@[simp] theorem writeIntStatus_outputs (w : Word) : (s.writeIntStatus w).outputs = s.outputs := rfl
@[simp] theorem writeIntStatus_cfmRef (w : Word) : (s.writeIntStatus w).cfmRef = s.cfmRef := rfl
@[simp] theorem writeIntStatus_events (w : Word) : (s.writeIntStatus w).events = s.events := rfl
@[simp] theorem writeIntStatus_control (w : Word) : (s.writeIntStatus w).control = s.control := rfl
@[simp] theorem writeIntStatus_globals (w : Word) : (s.writeIntStatus w).globals = s.globals := rfl
@[simp] theorem writeIntStatus_readData (w : Word) : (s.writeIntStatus w).readData = s.readData := rfl
@[simp] theorem writeIntStatus_choices (w : Word) : (s.writeIntStatus w).choices = s.choices := rfl
@[simp] theorem writeIntStatus_pending (w : Word) : (s.writeIntStatus w).pending = s.pending := rfl

/-! #### writeIntEnable -/

@[simp] theorem writeIntEnable_power (w : Word) : (s.writeIntEnable w).power = s.power := rfl
@[simp] theorem writeIntEnable_pins (w : Word) : (s.writeIntEnable w).pins = s.pins := rfl
@[simp] theorem writeIntEnable_position (w : Word) : (s.writeIntEnable w).position = s.position := rfl
@[simp] theorem writeIntEnable_lanes (w : Word) : (s.writeIntEnable w).lanes = s.lanes := rfl
@[simp] theorem writeIntEnable_queue (w : Word) : (s.writeIntEnable w).queue = s.queue := rfl
@[simp] theorem writeIntEnable_list (w : Word) : (s.writeIntEnable w).list = s.list := rfl
@[simp] theorem writeIntEnable_stations (w : Word) : (s.writeIntEnable w).stations = s.stations := rfl
@[simp] theorem writeIntEnable_outputs (w : Word) : (s.writeIntEnable w).outputs = s.outputs := rfl
@[simp] theorem writeIntEnable_cfmRef (w : Word) : (s.writeIntEnable w).cfmRef = s.cfmRef := rfl
@[simp] theorem writeIntEnable_events (w : Word) : (s.writeIntEnable w).events = s.events := rfl
@[simp] theorem writeIntEnable_control (w : Word) : (s.writeIntEnable w).control = s.control := rfl
@[simp] theorem writeIntEnable_globals (w : Word) : (s.writeIntEnable w).globals = s.globals := rfl
@[simp] theorem writeIntEnable_readData (w : Word) : (s.writeIntEnable w).readData = s.readData := rfl
@[simp] theorem writeIntEnable_choices (w : Word) : (s.writeIntEnable w).choices = s.choices := rfl
@[simp] theorem writeIntEnable_pending (w : Word) : (s.writeIntEnable w).pending = s.pending := rfl

/-! #### writeEventData -/

@[simp] theorem writeEventData_power : (s.writeEventData).power = s.power := rfl
@[simp] theorem writeEventData_pins : (s.writeEventData).pins = s.pins := rfl
@[simp] theorem writeEventData_position : (s.writeEventData).position = s.position := rfl
@[simp] theorem writeEventData_lanes : (s.writeEventData).lanes = s.lanes := rfl
@[simp] theorem writeEventData_queue : (s.writeEventData).queue = s.queue := rfl
@[simp] theorem writeEventData_list : (s.writeEventData).list = s.list := rfl
@[simp] theorem writeEventData_stations : (s.writeEventData).stations = s.stations := rfl
@[simp] theorem writeEventData_outputs : (s.writeEventData).outputs = s.outputs := rfl
@[simp] theorem writeEventData_cfmRef : (s.writeEventData).cfmRef = s.cfmRef := rfl
@[simp] theorem writeEventData_control : (s.writeEventData).control = s.control := rfl
@[simp] theorem writeEventData_host : (s.writeEventData).host = s.host := rfl
@[simp] theorem writeEventData_globals : (s.writeEventData).globals = s.globals := rfl
@[simp] theorem writeEventData_readData : (s.writeEventData).readData = s.readData := rfl
@[simp] theorem writeEventData_choices : (s.writeEventData).choices = s.choices := rfl
@[simp] theorem writeEventData_pending : (s.writeEventData).pending = s.pending := rfl

/-! #### writeParam -/

@[simp] theorem writeParam_power (n : Fin 8) (w : Word) : (s.writeParam n w).power = s.power := rfl
@[simp] theorem writeParam_pins (n : Fin 8) (w : Word) : (s.writeParam n w).pins = s.pins := rfl
@[simp] theorem writeParam_position (n : Fin 8) (w : Word) : (s.writeParam n w).position = s.position := rfl
@[simp] theorem writeParam_lanes (n : Fin 8) (w : Word) : (s.writeParam n w).lanes = s.lanes := rfl
@[simp] theorem writeParam_queue (n : Fin 8) (w : Word) : (s.writeParam n w).queue = s.queue := rfl
@[simp] theorem writeParam_list (n : Fin 8) (w : Word) : (s.writeParam n w).list = s.list := rfl
@[simp] theorem writeParam_stations (n : Fin 8) (w : Word) : (s.writeParam n w).stations = s.stations := rfl
@[simp] theorem writeParam_outputs (n : Fin 8) (w : Word) : (s.writeParam n w).outputs = s.outputs := rfl
@[simp] theorem writeParam_cfmRef (n : Fin 8) (w : Word) : (s.writeParam n w).cfmRef = s.cfmRef := rfl
@[simp] theorem writeParam_events (n : Fin 8) (w : Word) : (s.writeParam n w).events = s.events := rfl
@[simp] theorem writeParam_control (n : Fin 8) (w : Word) : (s.writeParam n w).control = s.control := rfl
@[simp] theorem writeParam_globals (n : Fin 8) (w : Word) : (s.writeParam n w).globals = s.globals := rfl
@[simp] theorem writeParam_readData (n : Fin 8) (w : Word) : (s.writeParam n w).readData = s.readData := rfl
@[simp] theorem writeParam_choices (n : Fin 8) (w : Word) : (s.writeParam n w).choices = s.choices := rfl
@[simp] theorem writeParam_pending (n : Fin 8) (w : Word) : (s.writeParam n w).pending = s.pending := rfl

/-! #### writeGlobals -/

@[simp] theorem writeGlobals_power (g : GlobalWords) : (s.writeGlobals g).power = s.power := rfl
@[simp] theorem writeGlobals_pins (g : GlobalWords) : (s.writeGlobals g).pins = s.pins := rfl
@[simp] theorem writeGlobals_lanes (g : GlobalWords) : (s.writeGlobals g).lanes = s.lanes := rfl
@[simp] theorem writeGlobals_queue (g : GlobalWords) : (s.writeGlobals g).queue = s.queue := rfl
@[simp] theorem writeGlobals_list (g : GlobalWords) : (s.writeGlobals g).list = s.list := rfl
@[simp] theorem writeGlobals_stations (g : GlobalWords) : (s.writeGlobals g).stations = s.stations := rfl
@[simp] theorem writeGlobals_outputs (g : GlobalWords) : (s.writeGlobals g).outputs = s.outputs := rfl
@[simp] theorem writeGlobals_cfmRef (g : GlobalWords) : (s.writeGlobals g).cfmRef = s.cfmRef := rfl
@[simp] theorem writeGlobals_control (g : GlobalWords) : (s.writeGlobals g).control = s.control := rfl
@[simp] theorem writeGlobals_host (g : GlobalWords) : (s.writeGlobals g).host = s.host := rfl
@[simp] theorem writeGlobals_readData (g : GlobalWords) : (s.writeGlobals g).readData = s.readData := rfl
@[simp] theorem writeGlobals_choices (g : GlobalWords) : (s.writeGlobals g).choices = s.choices := rfl
@[simp] theorem writeGlobals_pending (g : GlobalWords) : (s.writeGlobals g).pending = s.pending := rfl

/-! #### enterTracking -/

@[simp] theorem enterTracking_power : (s.enterTracking).power = s.power := rfl
@[simp] theorem enterTracking_pins : (s.enterTracking).pins = s.pins := rfl
@[simp] theorem enterTracking_position : (s.enterTracking).position = s.position := rfl
@[simp] theorem enterTracking_lanes : (s.enterTracking).lanes = s.lanes := rfl
@[simp] theorem enterTracking_queue : (s.enterTracking).queue = s.queue := rfl
@[simp] theorem enterTracking_list : (s.enterTracking).list = s.list := rfl
@[simp] theorem enterTracking_stations : (s.enterTracking).stations = s.stations := rfl
@[simp] theorem enterTracking_cfmRef : (s.enterTracking).cfmRef = s.cfmRef := rfl
@[simp] theorem enterTracking_events : (s.enterTracking).events = s.events := rfl
@[simp] theorem enterTracking_host : (s.enterTracking).host = s.host := rfl
@[simp] theorem enterTracking_globals : (s.enterTracking).globals = s.globals := rfl
@[simp] theorem enterTracking_readData : (s.enterTracking).readData = s.readData := rfl
@[simp] theorem enterTracking_choices : (s.enterTracking).choices = s.choices := rfl
@[simp] theorem enterTracking_pending : (s.enterTracking).pending = s.pending := rfl

/-! #### returnToSetup -/

@[simp] theorem returnToSetup_power : (s.returnToSetup).power = s.power := rfl
@[simp] theorem returnToSetup_pins : (s.returnToSetup).pins = s.pins := rfl
@[simp] theorem returnToSetup_cfmRef : (s.returnToSetup).cfmRef = s.cfmRef := rfl
@[simp] theorem returnToSetup_events : (s.returnToSetup).events = s.events := rfl
@[simp] theorem returnToSetup_host : (s.returnToSetup).host = s.host := rfl
@[simp] theorem returnToSetup_globals : (s.returnToSetup).globals = s.globals := rfl
@[simp] theorem returnToSetup_readData : (s.returnToSetup).readData = s.readData := rfl
@[simp] theorem returnToSetup_choices : (s.returnToSetup).choices = s.choices := rfl
@[simp] theorem returnToSetup_pending : (s.returnToSetup).pending = s.pending := rfl

/-! #### clearRun -/

@[simp] theorem clearRun_power : (s.clearRun).power = s.power := rfl
@[simp] theorem clearRun_pins : (s.clearRun).pins = s.pins := rfl
@[simp] theorem clearRun_list : (s.clearRun).list = s.list := rfl
@[simp] theorem clearRun_outputs : (s.clearRun).outputs = s.outputs := rfl
@[simp] theorem clearRun_cfmRef : (s.clearRun).cfmRef = s.cfmRef := rfl
@[simp] theorem clearRun_globals : (s.clearRun).globals = s.globals := rfl
@[simp] theorem clearRun_readData : (s.clearRun).readData = s.readData := rfl
@[simp] theorem clearRun_choices : (s.clearRun).choices = s.choices := rfl
@[simp] theorem clearRun_pending : (s.clearRun).pending = s.pending := rfl

/-! #### beginTracking -/

@[simp] theorem beginTracking_power : (s.beginTracking).power = s.power := rfl
@[simp] theorem beginTracking_pins : (s.beginTracking).pins = s.pins := rfl
@[simp] theorem beginTracking_queue : (s.beginTracking).queue = s.queue := rfl
@[simp] theorem beginTracking_cfmRef : (s.beginTracking).cfmRef = s.cfmRef := rfl
@[simp] theorem beginTracking_events : (s.beginTracking).events = s.events := rfl
@[simp] theorem beginTracking_host : (s.beginTracking).host = s.host := rfl
@[simp] theorem beginTracking_globals : (s.beginTracking).globals = s.globals := rfl
@[simp] theorem beginTracking_readData : (s.beginTracking).readData = s.readData := rfl
@[simp] theorem beginTracking_choices : (s.beginTracking).choices = s.choices := rfl
@[simp] theorem beginTracking_pending : (s.beginTracking).pending = s.pending := rfl

/-! #### completed -/

@[simp] theorem completed_power (c : ResultCode) (r : Vector Word 6) : (s.completed c r).power = s.power := rfl
@[simp] theorem completed_pins (c : ResultCode) (r : Vector Word 6) : (s.completed c r).pins = s.pins := rfl
@[simp] theorem completed_position (c : ResultCode) (r : Vector Word 6) : (s.completed c r).position = s.position := rfl
@[simp] theorem completed_lanes (c : ResultCode) (r : Vector Word 6) : (s.completed c r).lanes = s.lanes := rfl
@[simp] theorem completed_queue (c : ResultCode) (r : Vector Word 6) : (s.completed c r).queue = s.queue := rfl
@[simp] theorem completed_list (c : ResultCode) (r : Vector Word 6) : (s.completed c r).list = s.list := rfl
@[simp] theorem completed_stations (c : ResultCode) (r : Vector Word 6) : (s.completed c r).stations = s.stations := rfl
@[simp] theorem completed_outputs (c : ResultCode) (r : Vector Word 6) : (s.completed c r).outputs = s.outputs := rfl
@[simp] theorem completed_cfmRef (c : ResultCode) (r : Vector Word 6) : (s.completed c r).cfmRef = s.cfmRef := rfl
@[simp] theorem completed_events (c : ResultCode) (r : Vector Word 6) : (s.completed c r).events = s.events := rfl
@[simp] theorem completed_control (c : ResultCode) (r : Vector Word 6) : (s.completed c r).control = s.control := rfl
@[simp] theorem completed_globals (c : ResultCode) (r : Vector Word 6) : (s.completed c r).globals = s.globals := rfl
@[simp] theorem completed_readData (c : ResultCode) (r : Vector Word 6) : (s.completed c r).readData = s.readData := rfl
@[simp] theorem completed_choices (c : ResultCode) (r : Vector Word 6) : (s.completed c r).choices = s.choices := rfl
@[simp] theorem completed_pending (c : ResultCode) (r : Vector Word 6) : (s.completed c r).pending = s.pending := rfl

/-! #### atPair -/

@[simp] theorem atPair_power (a b : Level) : (s.atPair a b).power = s.power := rfl
@[simp] theorem atPair_lanes (a b : Level) : (s.atPair a b).lanes = s.lanes := rfl
@[simp] theorem atPair_queue (a b : Level) : (s.atPair a b).queue = s.queue := rfl
@[simp] theorem atPair_list (a b : Level) : (s.atPair a b).list = s.list := rfl
@[simp] theorem atPair_stations (a b : Level) : (s.atPair a b).stations = s.stations := rfl
@[simp] theorem atPair_outputs (a b : Level) : (s.atPair a b).outputs = s.outputs := rfl
@[simp] theorem atPair_cfmRef (a b : Level) : (s.atPair a b).cfmRef = s.cfmRef := rfl
@[simp] theorem atPair_events (a b : Level) : (s.atPair a b).events = s.events := rfl
@[simp] theorem atPair_control (a b : Level) : (s.atPair a b).control = s.control := rfl
@[simp] theorem atPair_host (a b : Level) : (s.atPair a b).host = s.host := rfl
@[simp] theorem atPair_globals (a b : Level) : (s.atPair a b).globals = s.globals := rfl
@[simp] theorem atPair_readData (a b : Level) : (s.atPair a b).readData = s.readData := rfl
@[simp] theorem atPair_choices (a b : Level) : (s.atPair a b).choices = s.choices := rfl
@[simp] theorem atPair_pending (a b : Level) : (s.atPair a b).pending = s.pending := rfl

/-! #### The fields an update changes -/

@[simp] theorem updLane_lanes (l : LaneId) (f : Lane → Lane) : (s.updLane l f).lanes = upd s.lanes l f := rfl
@[simp] theorem updStation_stations (n : StationId) (f : Station → Station) :
    (s.updStation n f).stations = upd s.stations n f := rfl
@[simp] theorem updOutput_outputs (o : OutputId) (f : OutputLine → OutputLine) :
    (s.updOutput o f).outputs = upd s.outputs o f := rfl
@[simp] theorem updItem_items (tag : Tag) (f : Item → Item) :
    (s.updItem tag f).queue.items = s.queue.items.map (fun i => if i.tag = tag then f i else i) := rfl
@[simp] theorem updItem_nextTag (tag : Tag) (f : Item → Item) :
    (s.updItem tag f).queue.nextTag = s.queue.nextTag := rfl
@[simp] theorem updEntries_entries (f : List Entry → List Entry) :
    (s.updEntries f).list.entries = f s.list.entries := rfl
@[simp] theorem updEntries_firingPoint (f : List Entry → List Entry) :
    (s.updEntries f).list.firingPoint = s.list.firingPoint := rfl
@[simp] theorem place_entries (e : Entry) :
    (s.place e).list.entries = insertEntry s.list.firingPoint e s.list.entries := rfl
@[simp] theorem place_firingPoint (e : Entry) : (s.place e).list.firingPoint = s.list.firingPoint := rfl
@[simp] theorem removeOnEntries_entries (n : StationId) :
    (s.removeOnEntries n).list.entries = s.list.entries.filter (fun e => !e.isOnOf n) := rfl
@[simp] theorem removeOnEntries_firingPoint (n : StationId) :
    (s.removeOnEntries n).list.firingPoint = s.list.firingPoint := rfl
@[simp] theorem freeItem_items (tag : Tag) :
    (s.freeItem tag).queue.items = s.queue.items.filter (fun i => i.tag != tag) := rfl
@[simp] theorem freeItem_nextTag (tag : Tag) : (s.freeItem tag).queue.nextTag = s.queue.nextTag := rfl
@[simp] theorem freeItem_entries (tag : Tag) :
    (s.freeItem tag).list.entries = s.list.entries.map (fun e => if e.tag = tag then e.unmark else e) := rfl
@[simp] theorem freeItem_firingPoint (tag : Tag) : (s.freeItem tag).list.firingPoint = s.list.firingPoint := rfl
@[simp] theorem raiseInt_intStatus (b : BitVec 4) : (s.raiseInt b).host.intStatus = s.host.intStatus ||| b := rfl
@[simp] theorem requestHalt_requests (c : Cause) :
    (s.requestHalt c).control.requests = s.control.requests ++ [c] := rfl
@[simp] theorem requestHalt_op (c : Cause) : (s.requestHalt c).control.op = s.control.op := rfl
@[simp] theorem withRequests_requests (cs : List Cause) : (s.withRequests cs).control.requests = cs := rfl
@[simp] theorem withRequests_op (cs : List Cause) : (s.withRequests cs).control.op = s.control.op := rfl
@[simp] theorem withRequests_firstCause (cs : List Cause) :
    (s.withRequests cs).control.firstCause = s.control.firstCause := rfl
@[simp] theorem withRequests_causeMask (cs : List Cause) :
    (s.withRequests cs).control.causeMask = s.control.causeMask := rfl
@[simp] theorem withRequests_hldAsserted (cs : List Cause) :
    (s.withRequests cs).control.hldAsserted = s.control.hldAsserted := rfl
@[simp] theorem withRequests_twice (cs ds : List Cause) : (s.withRequests cs).withRequests ds = s.withRequests ds := rfl
@[simp] theorem withRequests_self : s.withRequests s.control.requests = s := rfl
@[simp] theorem loadPulse_stations (n : StationId) :
    (s.loadPulse n).stations = upd s.stations n (fun st =>
      { st with pulse := some { left := st.config.pulseWord, reloaded := st.pulse.map (fun _ => s.position.tracking) } }) :=
  rfl
@[simp] theorem takePulseEnd_stations (n : StationId) :
    (s.takePulseEnd n).stations
      = upd s.stations n (fun st => { st with pulse := st.pulse.bind (TimePulse.atEnd s.position.tracking) }) := rfl
@[simp] theorem sampleCfm_cfmRef (i : InputId) (v : Level) :
    (s.sampleCfm i v).cfmRef = upd s.cfmRef i (fun _ => v) := rfl
@[simp] theorem sampleHld_op (a : Bool) : (s.sampleHld a).control.op = s.control.op := rfl
@[simp] theorem settleFiringPoint_entries : s.settleFiringPoint.list.entries = s.list.entries := rfl
@[simp] theorem settleFiringPoint_firingPoint :
    s.settleFiringPoint.list.firingPoint = s.position.tracking := rfl
@[simp] theorem setPositions_counter (c p : Pos) : (s.setPositions c p).position.counter = c := rfl
@[simp] theorem setPositions_tracking (c p : Pos) : (s.setPositions c p).position.tracking = p := rfl
@[simp] theorem setReference_counter (a b : Level) :
    (s.setReference a b).position.counter = s.position.counter := rfl
@[simp] theorem setReference_tracking (a b : Level) :
    (s.setReference a b).position.tracking = s.position.tracking := rfl

end Sys2Proof.Machine
end

