-- ==== Sys2Proof/Laws/Basics.lean ====
section
/-! SUPPORT. The plain helpers: elements of an updated vector, the list order, taking an entry out, the free
choice, and the last element of a list. -/

namespace Sys2Proof

variable {α : Type} {n : Nat}

theorem upd_get (v : Vector α n) (i j : Fin n) (f : α → α) :
    (upd v i f)[j] = if j = i then f v[i] else v[j] := by
  simp only [upd, Fin.getElem_fin, Vector.getElem_set]
  by_cases h : j = i
  · subst h; simp
  · have : i.val ≠ j.val := fun e => h (Fin.ext e.symm)
    simp [h, this]

/-- `upd_get` with the index in the form `simp` leaves it in. -/
@[simp] theorem upd_get_val (v : Vector α n) (i j : Fin n) (f : α → α) :
    (upd v i f)[j.val] = if j = i then f v[i] else v[j] := upd_get v i j f

theorem upd_get_same (v : Vector α n) (i : Fin n) (f : α → α) : (upd v i f)[i] = f v[i] := by
  rw [upd_get, if_pos rfl]

theorem upd_get_other {v : Vector α n} {i j : Fin n} (h : j ≠ i) (f : α → α) : (upd v i f)[j] = v[j] := by
  rw [upd_get, if_neg h]

theorem mapAll_get (f : α → α) (v : Vector α n) (i : Fin n) : (mapAll f v)[i] = f v[i] := by
  simp [mapAll]

/-- `mapAll_get` with the index in the form `simp` leaves it in. -/
@[simp] theorem mapAll_get_val (f : α → α) (v : Vector α n) (i : Nat) (h : i < n) : (mapAll f v)[i] = f v[i] := by
  simp [mapAll]

/-- A property of elements that `f` keeps holds after an update. -/
theorem upd_forall {v : Vector α n} {P : Fin n → α → Prop} (i : Fin n) {f : α → α}
    (hv : ∀ j : Fin n, P j v[j]) (hf : P i v[i] → P i (f v[i])) (j : Fin n) : P j (upd v i f)[j] := by
  rw [upd_get]
  split
  · next h => subst h; exact hf (hv _)
  · exact hv j

/-- A projection that `f` keeps is the same for every element after an update. -/
theorem upd_get_proj {β : Type} {v : Vector α n} (i j : Fin n) {f : α → α} (g : α → β)
    (hf : g (f v[i]) = g v[i]) : g (upd v i f)[j] = g v[j] := by
  rw [upd_get]
  split
  · next h => subst h; exact hf
  · rfl

@[simp] theorem laneIds_mem (l : LaneId) : l ∈ laneIds := by revert l; decide

@[simp] theorem stationIds_mem (n : StationId) : n ∈ stationIds := by revert n; decide

namespace Machine

/-! ### Placing and taking out -/

theorem insertEntry_perm (p : Pos) (e : Entry) (es : List Entry) : (insertEntry p e es).Perm (e :: es) := by
  induction es with
  | nil => exact .refl _
  | cons x rest ih =>
    simp only [insertEntry]
    split
    · exact (List.Perm.cons x ih).trans (.swap e x rest)
    · exact .refl _

@[simp] theorem insertEntry_length (p : Pos) (e : Entry) (es : List Entry) :
    (insertEntry p e es).length = es.length + 1 := by
  simpa using (insertEntry_perm p e es).length_eq

theorem insertEntry_mem {p : Pos} {e x : Entry} {es : List Entry} :
    x ∈ insertEntry p e es ↔ x = e ∨ x ∈ es := by
  simpa using (insertEntry_perm p e es).mem_iff

theorem insertEntry_countP (p : Pos) (e : Entry) (es : List Entry) (q : Entry → Bool) :
    (insertEntry p e es).countP q = es.countP q + if q e then 1 else 0 := by
  rw [(insertEntry_perm p e es).countP_eq, List.countP_cons]

/-- What `takeFirst` answers: the first entry with `p`, out of its place. -/
theorem takeFirst_some {p : Entry → Bool} {es : List Entry} {e : Entry} {rest : List Entry}
    (h : takeFirst p es = some (e, rest)) :
    ∃ before after, es = before ++ e :: after ∧ rest = before ++ after ∧ p e = true
      ∧ ∀ x ∈ before, p x = false := by
  induction es generalizing rest with
  | nil => cases h
  | cons x tail ih =>
    simp only [takeFirst] at h
    split at h
    · next hx =>
      cases h
      exact ⟨[], tail, rfl, rfl, hx, by simp⟩
    · next hx =>
      cases hr : takeFirst p tail with
      | none => simp [hr] at h
      | some r =>
        simp only [hr, Option.map_some, Option.some.injEq, Prod.mk.injEq] at h
        obtain ⟨h1, h2⟩ := h
        obtain ⟨before, after, ht, hr2, hp, hb⟩ := ih (rest := r.2) (by rw [hr, ← h1])
        refine ⟨x :: before, after, by simp [ht], by simp [← h2, hr2], hp, ?_⟩
        intro y hy
        rcases List.mem_cons.1 hy with rfl | hy
        · simpa using hx
        · exact hb y hy

theorem takeFirst_none {p : Entry → Bool} {es : List Entry} :
    takeFirst p es = none ↔ ∀ x ∈ es, p x = false := by
  induction es with
  | nil => simp [takeFirst]
  | cons x tail ih =>
    simp only [takeFirst]
    split
    · next hx => simp [hx]
    · next hx => simp [ih, hx]

/-- The entry taken out and the rest are the list, in another order. -/
theorem takeFirst_perm {p : Entry → Bool} {es : List Entry} {e : Entry} {rest : List Entry}
    (h : takeFirst p es = some (e, rest)) : es.Perm (e :: rest) := by
  obtain ⟨before, after, rfl, rfl, -, -⟩ := takeFirst_some h
  exact List.perm_middle

theorem takeFirst_sublist {p : Entry → Bool} {es : List Entry} {e : Entry} {rest : List Entry}
    (h : takeFirst p es = some (e, rest)) : rest.Sublist es := by
  obtain ⟨before, after, rfl, rfl, -, -⟩ := takeFirst_some h
  exact List.Sublist.append_left (List.sublist_cons_self _ _) _

theorem takeFirst_length {p : Entry → Bool} {es : List Entry} {e : Entry} {rest : List Entry}
    (h : takeFirst p es = some (e, rest)) : es.length = rest.length + 1 := by
  simpa using (takeFirst_perm h).length_eq

/-! ### Marks -/

@[simp] theorem unmark_fire (e : Entry) : e.unmark.fire = e.fire := by cases e with | mk k => cases k <;> rfl
@[simp] theorem unmark_tag (e : Entry) : e.unmark.tag = e.tag := by cases e with | mk k => cases k <;> rfl
@[simp] theorem unmark_reached (e : Entry) : e.unmark.reached = e.reached := by cases e with | mk k => cases k <;> rfl
@[simp] theorem unmark_isOn (e : Entry) : e.unmark.isOn = e.isOn := by cases e with | mk k => cases k <;> rfl
@[simp] theorem unmark_isOff (e : Entry) : e.unmark.isOff = e.isOff := by cases e with | mk k => cases k <;> rfl
@[simp] theorem unmark_isOnOf (n : StationId) (e : Entry) : e.unmark.isOnOf n = e.isOnOf n := by
  cases e with | mk k => cases k <;> rfl
@[simp] theorem unmark_isRetire (e : Entry) : e.unmark.isRetire = e.isRetire := by
  cases e with | mk k => cases k <;> rfl
@[simp] theorem unmark_offDrives (s : State) (o : OutputId) (e : Entry) :
    s.offDrives o e.unmark = s.offDrives o e := by
  cases e with | mk k => cases k <;> rfl

theorem isOnOf_iff {n : StationId} {e : Entry} : e.isOnOf n = true ↔ e.kind = .on n := by
  cases e with | mk k => cases k <;> simp [Entry.isOnOf]

/-! ### The free choice -/

@[simp] theorem pick_nil {α : Type} (k : Nat) : pick k ([] : List α) = none := rfl
@[simp] theorem pick_one {α : Type} (k : Nat) (x : α) : pick k [x] = some (x, []) := rfl

/-- A choice takes one candidate out, whichever it is. -/
theorem pick_perm {α : Type} {k : Nat} {xs rest : List α} {x : α} (h : pick k xs = some (x, rest)) :
    xs.Perm (x :: rest) := by
  match xs, h with
  | [y], h => cases h; exact .refl _
  | y :: z :: tail, h =>
    simp only [pick] at h
    split at h
    · next w hw =>
      obtain ⟨h1, h2⟩ := Prod.mk.inj (Option.some.inj h)
      subst h1; subst h2
      obtain ⟨hlt, rfl⟩ := List.getElem?_eq_some_iff.1 hw
      exact (List.getElem_cons_eraseIdx_perm hlt).symm
    · cases h; exact .refl _

/-- There is always a choice when there is a candidate. -/
theorem pick_isSome {α : Type} (k : Nat) (xs : List α) : (pick k xs).isSome = !xs.isEmpty := by
  match xs with
  | [] => rfl
  | [x] => rfl
  | x :: y :: tail =>
    simp only [pick]
    split <;> rfl

theorem pick_length {α : Type} {k : Nat} {xs rest : List α} {x : α} (h : pick k xs = some (x, rest)) :
    xs.length = rest.length + 1 := by
  simpa using (pick_perm h).length_eq

@[simp] theorem mapLast_length {α : Type} (f : α → α) (xs : List α) : (mapLast f xs).length = xs.length := by
  induction xs with
  | nil => rfl
  | cons x tail ih => cases tail with
    | nil => rfl
    | cons y rest => simp [mapLast, ih]

theorem mapLast_append {α : Type} (f : α → α) (xs : List α) (x : α) :
    mapLast f (xs ++ [x]) = xs ++ [f x] := by
  induction xs with
  | nil => rfl
  | cons y tail ih =>
    cases tail with
    | nil => rfl
    | cons z rest => simp only [List.cons_append, mapLast] at ih ⊢; rw [ih]

end Machine

end Sys2Proof
end

