-- ==== Sys2Proof/Laws/Ops.lean ====
section
/-! SUPPORT. What the shared operations can do, said once: the arrival of an event, the taking of halt requests, the
free orders, the completion of a command, and the loops of the list. -/

namespace Sys2Proof.Machine

/-! ### The arrival of an event (R154 to R156) -/

/-- The records after an arrival. -/
def arrivedRecords (q : EventQueue) (here : Pos) (r : EventRecord) : List EventRecord :=
  if q.masks r.kind then q.records
  else if q.records.length + 2 ≤ 32 then q.records ++ [r]
  else if q.records.length + 1 = 32 then q.records ++ [lostRecord here]
  else mapLast EventRecord.loseOne q.records

/-- The bits of INT_STATUS an arrival sets. -/
def arrivedBits (q : EventQueue) (r : EventRecord) : BitVec 4 :=
  if q.masks r.kind then 0
  else
    (if q.records.length + 1 ≤ 32 ∧ q.records.length + 1 = q.threshold.toNat then intEvt else 0)
      ||| (if q.records.length + 2 ≤ 32 then 0 else intLost)

/-- An arrival changes the records and INT_STATUS, from the event queue and the tracking position alone. -/
theorem arrive_eq (s : State) (r : EventRecord) :
    s.arrive r = { s with events := { s.events with records := arrivedRecords s.events s.position.tracking r }
                          host := { s.host with intStatus := s.host.intStatus ||| arrivedBits s.events r } } := by
  unfold State.arrive arrivedRecords arrivedBits
  by_cases hm : s.events.masks r.kind = true
  · simp [hm]
  · simp only [hm, Bool.false_eq_true, if_false]
    by_cases h2 : s.events.records.length + 2 ≤ 32
    · have h1 : s.events.records.length + 1 ≤ 32 := by omega
      rw [if_pos (show s.events.records.length + 2 ≤ Config.eventRecords from h2), if_pos h2, if_pos h2]
      by_cases ht : s.events.records.length + 1 = s.events.threshold.toNat
      · rw [State.appendRecord, if_pos ht, if_pos ⟨h1, ht⟩]; simp [State.raiseInt]
      · rw [State.appendRecord, if_neg ht, if_neg (fun h => ht h.2)]; simp
    · rw [if_neg (show ¬ s.events.records.length + 2 ≤ Config.eventRecords from h2), if_neg h2, if_neg h2]
      by_cases h1 : s.events.records.length + 1 = 32
      · rw [if_pos (show s.events.records.length + 1 = Config.eventRecords from h1), if_pos h1]
        by_cases ht : s.events.records.length + 1 = s.events.threshold.toNat
        · rw [State.appendRecord, if_pos ht, if_pos ⟨by omega, ht⟩]; simp [State.raiseInt, BitVec.or_assoc]
        · rw [State.appendRecord, if_neg ht, if_neg (fun h => ht h.2)]; simp [State.raiseInt]
      · have : ¬ s.events.records.length + 1 ≤ 32 := by omega
        rw [if_neg (show ¬ s.events.records.length + 1 = Config.eventRecords from h1), if_neg h1,
          if_neg (fun h => this h.1)]; simp [State.raiseInt]

/-- A report is the arrival of the record formed at this moment. -/
theorem report_eq (s : State) (kind : EventKind) (unit : BitVec 4) (tag : Tag) (auxA auxB : Word) :
    s.report kind unit tag auxA auxB = s.arrive (s.recordNow kind unit tag auxA auxB) := rfl

@[simp] theorem recordNow_kind (s : State) (k : EventKind) (u : BitVec 4) (t : Tag) (a b : Word) :
    (s.recordNow k u t a b).kind = k := rfl

/-! ### Halt requests (R140) -/

@[simp] theorem takeHalt_setup {s : State} (c : Cause) (h : s.control.op = .setup) : s.takeHalt c = s := by
  simp [State.takeHalt, h]

theorem takeHalt_tracking {s : State} (c : Cause) (h : s.control.op = .tracking) : s.takeHalt c = s.haltEntry c := by
  simp [State.takeHalt, h]

theorem takeHalt_halted {s : State} (c : Cause) (h : s.control.op = .halted) :
    s.takeHalt c = { s with control := { s.control with causeMask := s.control.causeMask ||| c.bit } } := by
  simp [State.takeHalt, h]

/-- A taken request leaves the requests on their way as they are. -/
@[simp] theorem takeHalt_requests (s : State) (c : Cause) : (s.takeHalt c).control.requests = s.control.requests := by
  unfold State.takeHalt
  split
  · rfl
  · simp [State.haltEntry, report_eq, arrive_eq]
  · rfl

/-- What is kept by the taking of a request, by the requests on their way changed and by a free choice used, holds after
as many requests have been taken as the free choice says. -/
theorem takeRequests_induction {P : State → Prop} (hw : ∀ s cs, P s → P (s.withRequests cs))
    (hc : ∀ (s : State) (xs : List (Option Cause)), P s → P (s.countChoice xs)) (hk : ∀ s c, P s → P (s.takeHalt c))
    (mayWait : Bool) (fuel : Nat) {s : State} (h : P s) : P (s.takeRequests mayWait fuel) := by
  induction fuel generalizing s with
  | zero => exact h
  | succ n ih =>
    simp only [State.takeRequests]
    split
    · exact h
    · exact hc _ _ h
    · exact ih (hk _ _ (hw _ _ (hc _ _ h)))

/-- What those three keep holds after all requests on their way have been taken. -/
theorem settleHalts_induction {P : State → Prop} (hw : ∀ s cs, P s → P (s.withRequests cs))
    (hc : ∀ (s : State) (xs : List (Option Cause)), P s → P (s.countChoice xs)) (hk : ∀ s c, P s → P (s.takeHalt c))
    {s : State} (h : P s) : P s.settleHalts := takeRequests_induction hw hc hk _ _ h

/-- What those three keep holds after requests have arrived. -/
theorem arriveHalts_induction {P : State → Prop} (hw : ∀ s cs, P s → P (s.withRequests cs))
    (hc : ∀ (s : State) (xs : List (Option Cause)), P s → P (s.countChoice xs)) (hk : ∀ s c, P s → P (s.takeHalt c))
    {s : State} (h : P s) : P s.arriveHalts := by
  unfold State.arriveHalts
  split
  · exact hw _ _ h
  · exact takeRequests_induction hw hc hk _ _ h
  · exact takeRequests_induction hw hc hk _ _ h

/-- With no request on its way nothing happens. -/
theorem settleHalts_none {s : State} (h : s.control.requests = []) : s.settleHalts = s := by
  simp [State.settleHalts, State.takeRequests, h]

/-- With one request on its way, that one is taken. -/
theorem settleHalts_one {s : State} {c : Cause} (h : s.control.requests = [c]) :
    s.settleHalts = (s.withRequests []).takeHalt c := by
  simp [State.settleHalts, State.takeRequests, State.arrivals, State.countChoice, pick, h]

/-- With no request on its way nothing arrives. -/
theorem arriveHalts_none {s : State} (h : s.control.requests = []) : s.arriveHalts = s := by
  have hw : s.withRequests [] = s := h ▸ withRequests_self s
  unfold State.arriveHalts
  split <;> simp [State.takeRequests, hw, h]

/-- With no command waiting every request on its way is taken. -/
theorem arriveHalts_settled {s : State} (h : s.pending = []) (ho : s.control.op ≠ .setup) :
    s.arriveHalts = s.settleHalts := by
  unfold State.arriveHalts State.settleHalts
  split
  · contradiction
  · simp [h]
  · simp [h]

/-- With no command waiting and one request on its way, that one is taken; in SETUP it is not acted on. -/
theorem arriveHalts_one {s : State} {c : Cause} (hp : s.pending = []) (h : s.control.requests = [c]) :
    s.arriveHalts = (s.withRequests []).takeHalt c := by
  by_cases ho : s.control.op = .setup
  · rw [takeHalt_setup _ (by exact ho), State.arriveHalts, ho]
  · rw [arriveHalts_settled hp ho, settleHalts_one h]

/-- The free choices made play no part in the taking of a request. -/
theorem takeHalt_choices (s : State) (c : Cause) (n : Nat) :
    State.takeHalt { s with choices := n } c = { s.takeHalt c with choices := n } := by
  cases h : s.control.op
  · rw [takeHalt_setup c h, takeHalt_setup c (by exact h)]
  · rw [takeHalt_tracking c h, takeHalt_tracking c (by exact h)]
    simp only [State.haltEntry, report_eq, arrive_eq]
    rfl
  · rw [takeHalt_halted c h, takeHalt_halted c (by exact h)]

/-- A request that a block raises outside SETUP, when no other is on its way: taken or, while commands wait, left on its
way. -/
theorem requested_arrives {s : State} {c : Cause} (h : s.control.requests = []) (ho : s.control.op ≠ .setup) :
    s.Requested c (.next (s.requestHalt c).arriveHalts) := by
  have hw : (s.requestHalt c).withRequests [] = s := h ▸ withRequests_self s
  have hr : (s.requestHalt c).control.requests = [c] := by simp [h]
  refine ⟨fun hp => by rw [arriveHalts_one (s := s.requestHalt c) hp hr, hw], fun hp => ⟨s.choices + 1, ?_⟩⟩
  have he : s.pending.isEmpty = false := by simpa using hp
  have ha : (s.requestHalt c).arriveHalts = (s.requestHalt c).takeRequests true 1 := by
    unfold State.arriveHalts
    split
    · contradiction
    all_goals simp [h, he]
  have hk (k : Nat) : k % 2 = 0 ∨ k % 2 = 1 := by omega
  rw [ha, State.takeRequests, State.arrivals, hr]
  rcases hk (Config.choice s.choices) with hk | hk
  · right
    simp [pick, hk, State.countChoice]
  · left
    rw [← takeHalt_choices, ← hw]
    simp [pick, hk, State.countChoice, State.takeRequests, State.withRequests, State.requestHalt]

/-- In a part that runs with no request on its way, a command has its effect, and the requests it raises arrive. -/
theorem amid_quiet {s : State} {effect : State → State} (h : s.Quiet) :
    s.amid effect = (effect s).arriveHalts := by
  obtain ⟨hr, hq⟩ := h
  have hw : s.withRequests [] = s := hq ▸ withRequests_self s
  have hb : s.requestsBefore = [] := by
    unfold State.requestsBefore
    split <;> simp [hq]
  simp [State.amid, hr, hw, hb]

/-- In reset and without power a command has its effect alone. -/
theorem amid_stopped {s : State} {effect : State → State} (h : s.running = false) : s.amid effect = effect s := by
  simp [State.amid, h]

/-- What the effect brings about, and the arrival of requests keeps, holds after a command. -/
theorem amid_induction {P : State → Prop} (hw : ∀ s cs, P s → P (s.withRequests cs))
    (hc : ∀ (s : State) (xs : List (Option Cause)), P s → P (s.countChoice xs)) (hk : ∀ s c, P s → P (s.takeHalt c))
    {s : State} {effect : State → State} (he : ∀ t, t = s ∨ t = s.withRequests [] → P (effect t)) :
    P (s.amid effect) := by
  unfold State.amid
  split
  · exact arriveHalts_induction hw hc hk (hw _ _ (he _ (.inr rfl)))
  · exact he _ (.inl rfl)

/-! ### Free orders -/

/-- What every piece of work keeps, whatever order is taken, holds after all of it. -/
theorem inFreeOrder_induction {α : Type} {act : α → State → State} {P : State → Prop}
    (hc : ∀ (s : State) (xs : List α), P s → P (s.countChoice xs)) (ha : ∀ x s, P s → P (act x s))
    (fuel : Nat) (xs : List α) {s : State} (h : P s) : P (inFreeOrder act fuel xs s) := by
  induction fuel generalizing xs s with
  | zero => exact h
  | succ n ih =>
    simp only [inFreeOrder]
    split
    · exact h
    · exact ih _ (ha _ _ (hc _ _ h))

@[simp] theorem inFreeOrder_nil {α : Type} (act : α → State → State) (fuel : Nat) (s : State) :
    inFreeOrder act fuel [] s = s := by
  cases fuel <;> rfl

@[simp] theorem countChoice_one {α : Type} (s : State) (x : α) : s.countChoice [x] = s := rfl

@[simp] theorem inFreeOrder_one {α : Type} (act : α → State → State) (x : α) (s : State) :
    inFreeOrder act 1 [x] s = act x s := rfl

/-- What every piece of work keeps, with the requests on their way changed before it, holds after all of it. -/
theorem runTasks_induction {P : State → Prop}
    (hc : ∀ (s : State) (xs : List Task), P s → P (s.countChoice xs)) (ht : ∀ s t, P s → P (s.runTask t))
    (hw : ∀ s cs, P s → P (s.withRequests cs)) (fuel : Nat) (work : List Task) {s : State} (h : P s) :
    P (State.runTasks fuel work s) := by
  induction fuel generalizing work s with
  | zero => exact h
  | succ n ih =>
    cases work with
    | nil => exact h
    | cons x work =>
      simp only [State.runTasks]
      split
      · exact h
      · exact ih _ (ht _ _ (hw _ _ (hc _ _ h)))

@[simp] theorem runTasks_nil (fuel : Nat) (s : State) : State.runTasks fuel [] s = s := by
  cases fuel <;> rfl

/-- With no request on its way one piece of work is done, and the requests it raises stay on their way. -/
theorem runTasks_one (fuel : Nat) (task : Task) {s : State} (h : s.control.requests = []) :
    State.runTasks (fuel + 1) [task] s = (s.withRequests []).runTask task := by
  simp [State.runTasks, State.candidates, h, pick, State.countChoice]

/-! ### The loops of the list -/

/-- What taking one due entry out and acting on it keeps, holds after a firing. -/
theorem fireDue_induction {P : State → Prop}
    (hk : ∀ (s : State) (e : Entry) (rest : List Entry), P s → takeFirst s.due s.list.entries = some (e, rest) →
      P ((s.updEntries (fun _ => rest)).fireEntry e))
    (fuel : Nat) {s : State} (h : P s) : P (State.fireDue fuel s) := by
  induction fuel generalizing s with
  | zero => exact h
  | succ n ih =>
    simp only [State.fireDue]
    split
    · exact h
    · next heq => exact ih (hk _ _ _ h heq)

/-- What taking one reached entry out and acting on it keeps, holds after a catch-up loop. -/
theorem catchUpLoop_induction {P : State → Prop}
    (hk : ∀ (s : State) (e : Entry) (rest : List Entry), P s →
      takeFirst (fun e => e.reached) s.list.entries = some (e, rest) →
      P ((s.updEntries (fun _ => rest)).catchEntry e))
    (fuel taken missed : Nat) {s : State} (h : P s) : P (State.catchUpLoop fuel taken missed s).1 := by
  induction fuel generalizing s taken missed with
  | zero => exact h
  | succ n ih =>
    simp only [State.catchUpLoop]
    split
    · exact h
    · next heq => exact ih _ _ (hk _ _ _ h heq)

/-- What a declared miss keeps holds after all the expiries of a station at one tick. -/
theorem expireDue_induction {P : State → Prop} {n : StationId} (hk : ∀ s, P s → P (s.missHead n 0))
    (fuel : Nat) {s : State} (h : P s) : P (State.expireDue fuel n s) := by
  induction fuel generalizing s with
  | zero => exact h
  | succ k ih =>
    simp only [State.expireDue]
    split
    · exact ih (hk _ h)
    · exact h

/-! ### Completion (R172) -/

/-- The command in flight completes: the owner's state, with the result, READY and the CMD bit, and then the requests
that the owner raised arrive. -/
theorem complete_awaited {s : State} {code : BitVec 8} (judge : State → Answer) (h : s.Awaits code) :
    complete code judge s = .next (judge s).finish.arriveHalts := by
  obtain ⟨hq, h2, h3⟩ := h
  simp [complete, amid_quiet hq, State.inFlight, hq.1, h2, h3]

/-- For an owner that raises no request, nothing more happens. -/
theorem complete_quiet {s : State} {code : BitVec 8} (judge : State → Answer) (h : s.Awaits code)
    (hr : (judge s).state.control.requests = []) : complete code judge s = .next (judge s).finish := by
  rw [complete_awaited judge h, arriveHalts_none (by exact hr)]

/-- Steps 2 to 4 of R172, as the statements write them. -/
theorem finish_eq (a : Answer) : a.finish = a.state.completed a.code a.results := rfl

/-- A completion is the owner's answer or, with no such command in flight, nothing, amid the requests on their way. -/
theorem complete_cases (code : BitVec 8) (judge : State → Answer) (s : State) :
    complete code judge s = .next (s.amid id)
    ∨ complete code judge s = .next (s.amid (fun t => (judge t).finish)) := by
  have hi : ∀ cs, (s.withRequests cs).inFlight code = s.inFlight code := fun _ => rfl
  unfold complete State.amid
  by_cases h : s.inFlight code = true
  · simp [h, hi]
  · simp [h, hi]

/-! ### One step -/

/-- Every command has an outcome that is a next state. -/
theorem exec_next (c : Instr) (s : State) : ∃ t, exec c s = .next t := by
  cases c
  case unknownCommand =>
    simp only [exec, execUnknownCommand]
    split
    · exact ⟨_, rfl⟩
    · exact ⟨_, rfl⟩
  all_goals exact ⟨_, rfl⟩

theorem step_nil {s : State} (h : s.pending = []) : step s = .next s.clockPeriod := by
  simp [step, h]

theorem step_cons {s : State} {c : Instr} {rest : List Instr} (h : s.pending = c :: rest) :
    step s = exec c { s with pending := rest } := by
  simp [step, h]

/-! ### Transitions of the encoder (R1 to R3) -/

/-- QUAD decoding of a neighbouring pair of the sequence, with the invert on or off. -/
theorem quadMotion_step : ∀ (k : Fin 4) (forward invert : Bool),
    let p := quadSequence (if forward != invert then k + 1 else k - 1)
    (quadMotion (quadSequence k).1 (quadSequence k).2 p.1 p.2).inverted invert
      = if forward then .forward else .backward := by decide

/-- The decoder judges a step, in both modes and with the invert on or off, by its direction. -/
theorem judge_step {s : State} {forward : Bool} {a b : Level} (h : s.IsStep forward a b) :
    s.position.judge a b = if forward then .forward else .backward := by
  unfold PositionUnit.judge
  rcases h with ⟨hm, k, hr, hp⟩ | ⟨hm, hr, rfl, rfl⟩
  · obtain ⟨h1, h2⟩ := Prod.mk.inj hr
    obtain ⟨h3, h4⟩ := Prod.mk.inj hp
    rw [hm, h1, h2, h3, h4]
    exact quadMotion_step k forward s.position.invert
  · rw [hm, hr]
    cases s.position.invert <;> cases forward <;> rfl

/-- The decoder judges a transition that is no step and no error as none. -/
theorem judge_noStep {s : State} {a b : Level} (h : s.IsNoStep a b) : s.position.judge a b = .none := by
  unfold PositionUnit.judge
  rcases h with ⟨hm, rfl, rfl⟩ | ⟨hm, hr⟩
  · rw [hm]
    cases s.position.invert <;> cases s.position.refA <;> cases s.position.refB <;> rfl
  · rw [hm]
    rcases hr with hr | rfl
    · rw [hr]
      cases s.position.invert <;> cases a <;> rfl
    · cases s.position.invert <;> cases s.position.refA <;> rfl

/-! ### Items -/

/-- With distinct tags, the search by tag finds the item itself. -/
theorem findItem_of_mem {s : State} (h : (s.queue.items.map Item.tag).Nodup) {i : Item} (hi : i ∈ s.queue.items) :
    s.findItem i.tag = some i := by
  unfold State.findItem
  generalize s.queue.items = xs at h hi
  induction xs with
  | nil => cases hi
  | cons x rest ih =>
    simp only [List.map_cons, List.nodup_cons] at h
    by_cases hx : x.tag = i.tag
    · have : x = i := by
        rcases List.mem_cons.1 hi with rfl | hr
        · rfl
        · exact absurd (List.mem_map.2 ⟨i, hr, hx.symm⟩) h.1
      simp [this]
    · have hr : i ∈ rest := (List.mem_cons.1 hi).resolve_left (fun e => hx (by rw [e]))
      simp [hx, ih h.2 hr]

/-- What the search by tag finds is a live item that holds the tag. -/
theorem findItem_some {s : State} {tag : Tag} {i : Item} (h : s.findItem tag = some i) :
    i ∈ s.queue.items ∧ i.tag = tag :=
  ⟨List.mem_of_find?_eq_some h, by simpa using List.find?_some h⟩

end Sys2Proof.Machine
end

