-- ==== Sys2Proof/WellFormed.lean ====
section
/-! DEFINITION. Which terms of Instr are rows of the table: a REGISTER_WRITE names a register that has no
write row of its own. Every other operand is in range by its type. -/

namespace Sys2Proof

/-- The registers, by the number on A1 to A5 (half the offset of section 10.2), whose writes have a row of
their own: STATUS (04h), INT_STATUS (06h), INT_ENABLE (08h), CMD (0Ah), EVENT_THRESHOLD (2Eh) and
EVENT_DATA (30h). -/
def hasWriteRow (register : BitVec 5) : Bool :=
  register == 2#5 || register == 3#5 || register == 4#5 || register == 5#5
    || register == 23#5 || register == 24#5

/-- The check on one command. -/
def Instr.wellFormed : Instr → Bool
  | .registerWrite register _ => !hasWriteRow register
  | .powerApplied => true
  | .powerOnResetEnd => true
  | .resetNAssert => true
  | .resetNRelease => true
  | .encoderTransition _ _ => true
  | .timePulseEnd _ => true
  | .watchExpiry _ => true
  | .confirmEdge _ _ => true
  | .detInputChange _ _ => true
  | .hldAssert => true
  | .hldRelease => true
  | .cmdWrite _ => true
  | .setGlobal => true
  | .getGlobal => true
  | .setLane => true
  | .getLane => true
  | .setStation => true
  | .getStation => true
  | .setOutput => true
  | .forceOutput => true
  | .presetPosition => true
  | .start => true
  | .stop => true
  | .halt => true
  | .resume => true
  | .decideItem => true
  | .cancel => true
  | .queryItem => true
  | .stationEnable => true
  | .readCounts => true
  | .readLaneCounters => true
  | .reinit => true
  | .unknownCommand => true
  | .posLowRead => true
  | .trackLowRead => true
  | .eventDataRead => true
  | .eventDataWrite _ => true
  | .intStatusWrite _ => true
  | .intEnableWrite _ => true
  | .eventThresholdWrite _ => true
  | .statusWrite _ => true
  | .powerLoss => true

end Sys2Proof
end

