-- ==== Sys2Proof/Laws/PerInstr.lean ====
section
/-! SUPPORT. One lemma per command, for the statements that run over all commands. -/

/-- A command is a row of the table just when, if it is a REGISTER_WRITE, its register has no write row of its own
(section 10.2). -/
def Sys2Proof.Laws.RowOperands.Statement (c : Sys2Proof.Instr) : Prop :=
  c.wellFormed = true ↔ ∀ register value, c = .registerWrite register value → Sys2Proof.hasWriteRow register = false

section

open Sys2Proof

set_option Elab.async false

theorem Sys2Proof.Laws.RowOperands.powerApplied : Laws.RowOperands.Statement .powerApplied := by
  simp [Laws.RowOperands.Statement, Instr.wellFormed]

theorem Sys2Proof.Laws.RowOperands.powerOnResetEnd : Laws.RowOperands.Statement .powerOnResetEnd := by
  simp [Laws.RowOperands.Statement, Instr.wellFormed]

theorem Sys2Proof.Laws.RowOperands.resetNAssert : Laws.RowOperands.Statement .resetNAssert := by
  simp [Laws.RowOperands.Statement, Instr.wellFormed]

theorem Sys2Proof.Laws.RowOperands.resetNRelease : Laws.RowOperands.Statement .resetNRelease := by
  simp [Laws.RowOperands.Statement, Instr.wellFormed]

theorem Sys2Proof.Laws.RowOperands.encoderTransition (a b : Level) : Laws.RowOperands.Statement (.encoderTransition a b) := by
  simp [Laws.RowOperands.Statement, Instr.wellFormed]

theorem Sys2Proof.Laws.RowOperands.timePulseEnd (station : StationId) : Laws.RowOperands.Statement (.timePulseEnd station) := by
  simp [Laws.RowOperands.Statement, Instr.wellFormed]

theorem Sys2Proof.Laws.RowOperands.watchExpiry (station : StationId) : Laws.RowOperands.Statement (.watchExpiry station) := by
  simp [Laws.RowOperands.Statement, Instr.wellFormed]

theorem Sys2Proof.Laws.RowOperands.confirmEdge (input : InputId) (rising : Bool) : Laws.RowOperands.Statement (.confirmEdge input rising) := by
  simp [Laws.RowOperands.Statement, Instr.wellFormed]

theorem Sys2Proof.Laws.RowOperands.detInputChange (lane : LaneId) (level : Level) : Laws.RowOperands.Statement (.detInputChange lane level) := by
  simp [Laws.RowOperands.Statement, Instr.wellFormed]

theorem Sys2Proof.Laws.RowOperands.hldAssert : Laws.RowOperands.Statement .hldAssert := by
  simp [Laws.RowOperands.Statement, Instr.wellFormed]

theorem Sys2Proof.Laws.RowOperands.hldRelease : Laws.RowOperands.Statement .hldRelease := by
  simp [Laws.RowOperands.Statement, Instr.wellFormed]

theorem Sys2Proof.Laws.RowOperands.cmdWrite (value : Word) : Laws.RowOperands.Statement (.cmdWrite value) := by
  simp [Laws.RowOperands.Statement, Instr.wellFormed]

theorem Sys2Proof.Laws.RowOperands.setGlobal : Laws.RowOperands.Statement .setGlobal := by
  simp [Laws.RowOperands.Statement, Instr.wellFormed]

theorem Sys2Proof.Laws.RowOperands.getGlobal : Laws.RowOperands.Statement .getGlobal := by
  simp [Laws.RowOperands.Statement, Instr.wellFormed]

theorem Sys2Proof.Laws.RowOperands.setLane : Laws.RowOperands.Statement .setLane := by
  simp [Laws.RowOperands.Statement, Instr.wellFormed]

theorem Sys2Proof.Laws.RowOperands.getLane : Laws.RowOperands.Statement .getLane := by
  simp [Laws.RowOperands.Statement, Instr.wellFormed]

theorem Sys2Proof.Laws.RowOperands.setStation : Laws.RowOperands.Statement .setStation := by
  simp [Laws.RowOperands.Statement, Instr.wellFormed]

theorem Sys2Proof.Laws.RowOperands.getStation : Laws.RowOperands.Statement .getStation := by
  simp [Laws.RowOperands.Statement, Instr.wellFormed]

theorem Sys2Proof.Laws.RowOperands.setOutput : Laws.RowOperands.Statement .setOutput := by
  simp [Laws.RowOperands.Statement, Instr.wellFormed]

theorem Sys2Proof.Laws.RowOperands.forceOutput : Laws.RowOperands.Statement .forceOutput := by
  simp [Laws.RowOperands.Statement, Instr.wellFormed]

theorem Sys2Proof.Laws.RowOperands.presetPosition : Laws.RowOperands.Statement .presetPosition := by
  simp [Laws.RowOperands.Statement, Instr.wellFormed]

theorem Sys2Proof.Laws.RowOperands.start : Laws.RowOperands.Statement .start := by
  simp [Laws.RowOperands.Statement, Instr.wellFormed]

theorem Sys2Proof.Laws.RowOperands.stop : Laws.RowOperands.Statement .stop := by
  simp [Laws.RowOperands.Statement, Instr.wellFormed]

theorem Sys2Proof.Laws.RowOperands.halt : Laws.RowOperands.Statement .halt := by
  simp [Laws.RowOperands.Statement, Instr.wellFormed]

theorem Sys2Proof.Laws.RowOperands.resume : Laws.RowOperands.Statement .resume := by
  simp [Laws.RowOperands.Statement, Instr.wellFormed]

theorem Sys2Proof.Laws.RowOperands.decideItem : Laws.RowOperands.Statement .decideItem := by
  simp [Laws.RowOperands.Statement, Instr.wellFormed]

theorem Sys2Proof.Laws.RowOperands.cancel : Laws.RowOperands.Statement .cancel := by
  simp [Laws.RowOperands.Statement, Instr.wellFormed]

theorem Sys2Proof.Laws.RowOperands.queryItem : Laws.RowOperands.Statement .queryItem := by
  simp [Laws.RowOperands.Statement, Instr.wellFormed]

theorem Sys2Proof.Laws.RowOperands.stationEnable : Laws.RowOperands.Statement .stationEnable := by
  simp [Laws.RowOperands.Statement, Instr.wellFormed]

theorem Sys2Proof.Laws.RowOperands.readCounts : Laws.RowOperands.Statement .readCounts := by
  simp [Laws.RowOperands.Statement, Instr.wellFormed]

theorem Sys2Proof.Laws.RowOperands.readLaneCounters : Laws.RowOperands.Statement .readLaneCounters := by
  simp [Laws.RowOperands.Statement, Instr.wellFormed]

theorem Sys2Proof.Laws.RowOperands.reinit : Laws.RowOperands.Statement .reinit := by
  simp [Laws.RowOperands.Statement, Instr.wellFormed]

theorem Sys2Proof.Laws.RowOperands.unknownCommand : Laws.RowOperands.Statement .unknownCommand := by
  simp [Laws.RowOperands.Statement, Instr.wellFormed]

theorem Sys2Proof.Laws.RowOperands.posLowRead : Laws.RowOperands.Statement .posLowRead := by
  simp [Laws.RowOperands.Statement, Instr.wellFormed]

theorem Sys2Proof.Laws.RowOperands.trackLowRead : Laws.RowOperands.Statement .trackLowRead := by
  simp [Laws.RowOperands.Statement, Instr.wellFormed]

theorem Sys2Proof.Laws.RowOperands.eventDataRead : Laws.RowOperands.Statement .eventDataRead := by
  simp [Laws.RowOperands.Statement, Instr.wellFormed]

theorem Sys2Proof.Laws.RowOperands.eventDataWrite (value : Word) : Laws.RowOperands.Statement (.eventDataWrite value) := by
  simp [Laws.RowOperands.Statement, Instr.wellFormed]

theorem Sys2Proof.Laws.RowOperands.intStatusWrite (value : Word) : Laws.RowOperands.Statement (.intStatusWrite value) := by
  simp [Laws.RowOperands.Statement, Instr.wellFormed]

theorem Sys2Proof.Laws.RowOperands.intEnableWrite (value : Word) : Laws.RowOperands.Statement (.intEnableWrite value) := by
  simp [Laws.RowOperands.Statement, Instr.wellFormed]

theorem Sys2Proof.Laws.RowOperands.eventThresholdWrite (value : Word) : Laws.RowOperands.Statement (.eventThresholdWrite value) := by
  simp [Laws.RowOperands.Statement, Instr.wellFormed]

theorem Sys2Proof.Laws.RowOperands.statusWrite (value : Word) : Laws.RowOperands.Statement (.statusWrite value) := by
  simp [Laws.RowOperands.Statement, Instr.wellFormed]

theorem Sys2Proof.Laws.RowOperands.registerWrite (register : BitVec 5) (value : Word) : Laws.RowOperands.Statement (.registerWrite register value) := by
  simp [Laws.RowOperands.Statement, Instr.wellFormed]

theorem Sys2Proof.Laws.RowOperands.powerLoss : Laws.RowOperands.Statement .powerLoss := by
  simp [Laws.RowOperands.Statement, Instr.wellFormed]

end
end

