-- ==== Sys2Proof/Tests/Slice0.lean ====
section
/-! SUPPORT. Tests: the well-formedness smoke, one step of each command with the value the manual gives for it, and,
for every statement with hypotheses, a state that meets them, clause by clause. -/

open Sys2Proof Sys2Proof.Machine

namespace Sys2Proof.Tests

set_option Elab.async false

/-! ### Well-formedness, and the table's bits -/

/-- A REGISTER_WRITE to CMD, whose writes have a row of their own (section 10.2), is refused. -/
theorem test_wf_register_write_cmd_refused : Instr.wellFormed (.registerWrite 5 0) = false := by decide

/-- So is each of the six registers with a write row, and no other number. -/
theorem test_wf_register_write_rows :
    (List.range 32).filter (fun k => !Instr.wellFormed (.registerWrite (BitVec.ofNat 5 k) 0)) = [2, 3, 4, 5, 23, 24] := by
  decide

/-- The table gives no row any bits, so no word spells a command. -/
theorem test_no_word_is_a_command : decodeTableWord 16 0x0001 = none := by decide

/-! ### Small states -/

/-- Lane 0 of the worked sequences (section 11, two items), with filter distance 0. -/
def lane0 : Lane :=
  { Lane.reset with
    config := { LaneConfig.reset with enabled := true, filter := 0, decision := 200, exit := 800 }
    detector := .clear }

/-- Station 0 of the worked sequences: the glue valve. -/
def glue : Station :=
  { Station.reset with
    config := { StationConfig.reset with enabled := true, offset := 300, pulseWord := 40 }
    runtime := .enabled }

/-- Station 1 of the worked sequences: the reject pusher. -/
def pusher : Station :=
  { Station.reset with
    config := { StationConfig.reset with enabled := true, offset := 500, pulseWord := 30, output := 1, selector := .reject }
    runtime := .enabled }

/-- The line of the worked sequences at a position, in TRACKING or HALTED. -/
def line (op : OpState) (p : Pos) : State :=
  { State.reset with
    position := { PositionUnit.reset false false with counter := p, tracking := p }
    lanes := upd State.reset.lanes 0 (fun _ => lane0)
    list := { entries := [], firingPoint := p }
    stations := upd (upd State.reset.stations 0 (fun _ => glue)) 1 (fun _ => pusher)
    control := { Control.reset false with op := op } }

/-- The line in TRACKING at 1,000. -/
def running : State := line .tracking 1000

/-- The line HALTED at 1,000 by HLD, which has been released. -/
def halted : State :=
  let s := line .halted 1000
  { s with control := { s.control with firstCause := some .holdInput, causeMask := 1 } }

/-- An entry that is not reached. -/
def entry (kind : EntryKind) (fire : Pos) (tag : Tag) : Entry := { kind := kind, fire := fire, tag := tag, reached := false }

/-- Item 1 of the worked sequences, PASS by the host. -/
def item1 : Item := { newItem 1 0 1000 0 with verdict := .pass, source := .host }

/-- Item 2 of the worked sequences, UNDECIDED. -/
def item2 : Item := newItem 2 0 1150 0

/-- A state with these items and entries. -/
def with_ (s : State) (items : List Item) (entries : List Entry) : State :=
  { s with queue := { items := items, nextTag := 3 }, list := { s.list with entries := entries } }

/-- The two items and their entries just before 1,300. -/
def twoItems : State :=
  with_ (line .tracking 1299) [{ item1 with final := true }, item2]
    [entry (.on 0) 1300 1, entry .deadline 1350 2, entry (.on 0) 1450 2, entry (.on 1) 1500 1, entry (.on 1) 1650 2,
     entry .retire 1800 1, entry .retire 1950 2]

/-- A command in flight, with its parameter copy. -/
def asks (s : State) (code : BitVec 8) (copy : Vector Word 8) : State :=
  { s with host := { s.host with busy := true, lastCode := code, copy := copy } }

/-- A record for the event queue. -/
def record : EventRecord :=
  { kind := .itemRetired, unit := 0, low := 0, tag := 1, position := 1800, auxA := 0x000A, auxB := 1 }

/-- A time pulse with a time left. -/
def pulse (left : Word) : Option TimePulse := some { left := left, reloaded := none }

/-- A state with halt requests on their way. -/
def raised (s : State) (cs : List Cause) : State := { s with control := { s.control with requests := cs } }

/-- A state whose event queue holds these records. -/
def queued (s : State) (records : List EventRecord) : State := { s with events := { s.events with records := records } }

/-- A watch of item 1 in lane 0. -/
def watch (timeLeft : Word) : Watch := { tag := 1, lane := 0, timeLeft := timeLeft }

/-- Station 0 changed. -/
def station0 (s : State) (f : Station → Station) : State := { s with stations := upd s.stations 0 f }

/-- Lane 0's detector set. -/
def detector0 (s : State) (d : Detector) : State := { s with lanes := upd s.lanes 0 (fun x => { x with detector := d }) }

/-- Lane 0's configuration changed. -/
def config0 (s : State) (f : LaneConfig → LaneConfig) : State :=
  { s with lanes := upd s.lanes 0 (fun x => { x with config := f x.config }) }

/-- Lane 0's DET pin high. -/
def det0 (s : State) : State := { s with pins := { s.pins with det := upd s.pins.det 0 (fun _ => true) } }

/-- The counter set behind the tracking position. -/
def reversed (s : State) (amount : Pos) : State :=
  { s with position := { s.position with counter := s.position.tracking - amount } }

/-- Another encoder mode and invert. -/
def inMode (s : State) (mode : EncoderMode) (invert : Bool) : State :=
  { s with position := { s.position with mode := mode, invert := invert } }

/-- The pair one step on from a decoder reference with both lines low. -/
def pairOf (s : State) (forward : Bool) : Level × Level :=
  let onward := forward != s.position.invert
  match s.position.mode with
  | .quad => if onward then (true, false) else (false, true)
  | .pulseDir => (true, !onward)

/-- The transition to that pair. -/
def stepOf (s : State) (forward : Bool) : Instr := .encoderTransition (pairOf s forward).1 (pairOf s forward).2

/-- No power. -/
def dark : State := { State.reset with power := .off }

/-- RESET_N held low. -/
def held : State := { State.reset with pins := { Pins.reset with resetN := false } }

/-- The state after one command. -/
def then_ (s : State) (c : Instr) : State := s.after [c]

/-! ### Supply and reset -/

/-- R150: application of power drives every OUT pin low. -/
theorem test_power_applied : (then_ dark .powerApplied).outPin 0 = some false := by decide +kernel

/-- R150: STATUS after power-on reset is SETUP with POWER_ON (0020h). -/
theorem test_power_on_reset_end :
    (then_ { dark with power := .starting } .powerOnResetEnd).registerRead 2 = 0x0020 := by decide +kernel

/-- R149, R166: in reset ID reads 0. -/
theorem test_reset_n_assert : (then_ running .resetNAssert).registerRead 0 = 0 := by decide +kernel

/-- R149, section 11.1: after release ID reads 4716h, and the part is in SETUP. -/
theorem test_reset_n_release :
    let t := then_ (then_ running .resetNAssert) .resetNRelease
    t.registerRead 0 = 0x4716 ∧ t.control.op = .setup := by decide +kernel

/-- R150: without power no OUT pin is driven. -/
theorem test_power_loss : (then_ running .powerLoss).outPin 0 = none := by decide +kernel

/-! ### The belt -/

/-- The two-item sequence at 1,300: ON 1 s0 gives way to OFF 1 s0 1,340 at the head, 10 slots, OUT0 active. -/
theorem test_encoder_on_fires :
    let t := then_ twoItems (stepOf twoItems true)
    t.list.entries.head? = some (entry (.off 0 false) 1340 1) ∧ t.slotsUsed = 10 ∧ t.outPin 0 = some true := by
  decide +kernel

/-- R4: both lines change, no position moves, and the error count rises. -/
theorem test_encoder_error :
    let t := then_ State.reset (.encoderTransition true true)
    t.position.errors = 1 ∧ t.position.counter = 0 ∧ t.position.refA = true := by decide +kernel

/-- R103: the line of a station whose time pulse ends loses its holder. -/
theorem test_time_pulse_end :
    let s := station0 running (fun st => { st with pulse := pulse 1 })
    s.lineActive 0 = true ∧ (then_ s (.timePulseEnd 0)).lineActive 0 = false := by decide +kernel

/-- R104: the end of a time pulse and an activation of its station at one moment, in either order, leave the full pulse
word 40. -/
theorem test_pulse_end_and_activation :
    let s := station0 (with_ running [item1] [entry (.on 0) 1001 1]) (fun st =>
      { st with pulse := pulse 1, config := { st.config with mode := .time } })
    (then_ (then_ s (stepOf s true)) (.timePulseEnd 0)).stations[(0 : StationId)].pulse = pulse 40
      ∧ (then_ (then_ s (.timePulseEnd 0)) (stepOf s true)).stations[(0 : StationId)].pulse = pulse 40 := by decide +kernel

/-- R134, R140: a STATION_FAIL request still on its way when HLD halts the part finds HALTED and only adds its bit. -/
theorem test_request_after_halt_entry :
    let t := then_ (raised running [.stationFail]) .hldAssert
    t.control.firstCause = some .holdInput ∧ t.control.causeMask = Cause.holdInput.bit ||| Cause.stationFail.bit
      ∧ t.events.records.map EventRecord.auxA = [1] := by decide +kernel

/-- R140, R143: a request still on its way when STOP is taken finds SETUP and is not acted on. -/
theorem test_request_after_stop :
    let t := then_ (raised (asks running 0x11 (.replicate 8 0)) [.overReverse]) .stop
    t.control.op = .setup ∧ t.control.firstCause = none ∧ t.control.causeMask = 0 ∧ t.control.requests = [] := by
  decide +kernel

/-- R129, R130: a watch that runs out queues CONFIRM_MISSING for its station and tag, and the miss count is 1. -/
theorem test_watch_expiry :
    let t := then_ (station0 running (fun st => { st with watches := [watch 1] })) (.watchExpiry 0)
    t.stations[(0 : StationId)].misses = 1 ∧ t.events.records.map EventRecord.kind = [.confirmMissing]
      ∧ t.events.records.map EventRecord.tag = [1] := by decide +kernel

/-- R127: an edge that finds no watch is a stray. -/
theorem test_confirm_edge_stray :
    let s := station0 running (fun st => { st with config := { st.config with confirm := some 2 } })
    (then_ s (.confirmEdge 2 true)).stations[(0 : StationId)].strays = 1 := by decide +kernel

/-! ### Lanes and inputs -/

/-- The two-item sequence at the first admission: DL 1,200; ON s0 1,300; ON s1 1,500; RET 1,800; 6 slots. -/
theorem test_det_input_admits :
    let t := then_ running (.detInputChange 0 true)
    t.list.entries = [entry .deadline 1200 1, entry (.on 0) 1300 1, entry (.on 1) 1500 1, entry .retire 1800 1]
      ∧ t.slotsUsed = 6 ∧ t.queue.items.map Item.leading = [1000] := by decide +kernel

/-- R25, R26: the trailing edge 350 counts behind the leading edge queues ITEM_LENGTH with aux A 350. -/
theorem test_det_input_length :
    let s := det0 (detector0 (with_ (line .tracking 1350) [item1] []) (.occupied (some 1) none))
    let t := then_ s (.detInputChange 0 false)
    t.events.records.map EventRecord.auxA = [350] ∧ t.events.records.map EventRecord.kind = [.itemLength] := by
  decide +kernel

/-- R21: an active input 4 counts long is a leading edge at its capture position. -/
theorem test_filter_accepts :
    let s := det0 (detector0 (config0 running (fun c => { c with filter := 4 })) (.filtering 997))
    (then_ s (stepOf s true)).queue.items.map Item.leading = [997] := by decide +kernel

/-- R28, R29: an item under its sensor for its max length is LONG, with ITEM_JAM and, by the size policy, REJECT F1h. -/
theorem test_long_finding :
    let s := config0 (det0 (detector0 (with_ running [item1] []) (.occupied (some 1) none)))
      (fun c => { c with maxLength := 1, sizePolicy := .reject })
    let t := then_ s (stepOf s true)
    t.queue.items = [{ item1 with long := true, verdict := .reject, source := .forced, reason := 0xF1 }]
      ∧ t.events.records.map EventRecord.kind = [.itemJam] := by decide +kernel

/-- R31: a capture whose input is inactive at a re-sampling is a glitch. -/
theorem test_resample_glitch :
    let t := (detector0 running (.filtering 990)).laneResample 0
    t.lanes[(0 : LaneId)].detector = .clear ∧ t.lanes[(0 : LaneId)].counters.glitches = 1 := by decide +kernel

/-- The halt sequence: HLD asserted gives first cause 1 and HALTED with aux A 1 and aux B 0001h. -/
theorem test_hld_assert :
    let t := then_ running .hldAssert
    t.registerRead 7 = 0x0101 ∧ t.events.records.map EventRecord.auxA = [1] ∧ t.events.records.map EventRecord.auxB = [1] :=
  by decide +kernel

/-- R144: a release shows in STATUS bit 4 and does nothing more. -/
theorem test_hld_release :
    let t := then_ (then_ running .hldAssert) .hldRelease
    t.statusWord.getLsbD 4 = false ∧ t.control.op = .halted := by decide +kernel

/-! ### The window -/

/-- R171: an accepted write reads back with bit 15; R173: a second one is lost and shows CMD_OVERRUN. -/
theorem test_cmd_write :
    let t := then_ running (.cmdWrite 0x0012)
    t.registerRead 5 = 0x8012 ∧ (then_ t (.cmdWrite 0x0011)).registerRead 5 = 0x8012
      ∧ (then_ t (.cmdWrite 0x0011)).statusWord.getLsbD 3 = true := by decide +kernel

/-- R13: POS_LOW and POS_HIGH of one counter value. -/
theorem test_pos_low_read :
    let t := then_ (line .tracking 0x0001FFFF) .posLowRead
    t.readData = 0xFFFF ∧ t.registerRead 29 = 0x0001 := by decide +kernel

/-- R13: TRACK_LOW and TRACK_HIGH of one tracking position. -/
theorem test_track_low_read :
    let t := then_ (line .tracking 0xFFFE0003) .trackLowRead
    t.readData = 3 ∧ t.registerRead 31 = 0xFFFE := by decide +kernel

/-- Section 10.4: the six words of RETIRED 1 of the two-item sequence, and then an empty queue. -/
theorem test_event_data_read :
    let s := queued running [record]
    s.eventReads 6 = [0x0600, 1, 1800, 0, 0x000A, 1] ∧ s.eventReads 7 = [0x0600, 1, 1800, 0, 0x000A, 1, 0] := by
  decide +kernel

/-- R158: a write sends the reader back to w0. -/
theorem test_event_data_write :
    (then_ (then_ (queued running [record]) .eventDataRead) (.eventDataWrite 0)).registerRead 24 = 0x0600 := by
  decide +kernel

/-- R161, section 11.4: writing back what was read clears those bits. -/
theorem test_int_status_write :
    let s := { running with host := { running.host with intStatus := 0b1110 } }
    (then_ s (.intStatusWrite 0x0006)).registerRead 3 = 0x0008 := by decide +kernel

/-- R162: a bit set in both registers drives INT_N. -/
theorem test_int_enable_write :
    let s := { running with host := { running.host with intStatus := 4 } }
    s.intNLow = false ∧ (then_ s (.intEnableWrite 4)).intNLow = true := by decide +kernel

/-- R160: the threshold is held within 1 to 32. -/
theorem test_event_threshold_write :
    (then_ running (.eventThresholdWrite 0)).registerRead 23 = 1
      ∧ (then_ running (.eventThresholdWrite 33)).registerRead 23 = 32 := by decide +kernel

/-- Section 11.1: a write of 0020h clears POWER_ON. -/
theorem test_status_write : (then_ State.reset (.statusWrite 0x0020)).registerRead 2 = 0 := by decide +kernel

/-- R174: PARAM7 takes the word; R167: ID does not. -/
theorem test_register_write :
    (then_ running (.registerWrite 15 0xBEEF)).registerRead 15 = 0xBEEF
      ∧ (then_ running (.registerWrite 0 0xBEEF)).registerRead 0 = 0x4716 := by decide +kernel

/-! ### Settings -/

/-- R178: PULSE_DIR with invert, tolerance 3, kind 3 masked; GET_GLOBAL reads the words back (R179). -/
theorem test_set_global :
    let t := then_ (asks State.reset 0x01 #v[16, 5, 3, 4, 0, 0, 0, 0]) .setGlobal
    t.position.mode = .pulseDir ∧ t.position.invert = true
      ∧ (then_ (asks t 0x02 #v[0, 0, 0, 0, 0, 0, 0, 0]) .getGlobal).host.results = #v[16, 5, 3, 4, 1, 0] := by
  decide +kernel

/-- R179 with the defaults of section 10.8. -/
theorem test_get_global :
    (then_ (asks running 0x02 #v[9, 9, 9, 9, 9, 9, 9, 9]) .getGlobal).host.results = #v[16, 0, 16, 0, 1, 0] := by
  decide +kernel

/-- R16, section 10.7: the lane of the worked sequences, and a filter distance not below the exit distance. -/
theorem test_set_lane :
    let t := then_ (asks State.reset 0x03 #v[0x0400, 0x0009, 0, 0, 0, 200, 800, 0]) .setLane
    t.lanes[(0 : LaneId)].config = { LaneConfig.reset with enabled := true, filter := 4, decision := 200, exit := 800 }
      ∧ (then_ (asks State.reset 0x03 #v[0x0400, 0x0009, 0, 0, 0, 200, 4, 0]) .setLane).host.resultCode = .badParam := by
  decide +kernel

/-- R17: part 1 of a lane with an item under its sensor: distances, OCCUPIED (4), the linked tag. -/
theorem test_get_lane :
    (then_ (asks (detector0 running (.occupied (some 7) none)) 0x04 #v[0, 1, 0, 0, 0, 0, 0, 0]) .getLane).host.results
      = #v[200, 0, 800, 0, 4, 7] := by decide +kernel

/-- R87, section 10.7: the reject pusher of the worked sequences as station 1. -/
theorem test_set_station :
    (then_ (asks State.reset 0x05 #v[1, 500, 0x0100, 0x3085, 0xFFFF, 30, 0, 10000]) .setStation).stations[(1 : StationId)].config
      = pusher.config := by decide +kernel

/-- R88: part 1 of a FAILED station: miss limit 3, FAILED (2) in bits 5:4, miss count 3. -/
theorem test_get_station :
    let s := station0 running (fun st => { st with runtime := .failed, misses := 3, strays := 9 })
    (then_ (asks s 0x06 #v[0, 1, 0, 0, 0, 0, 0, 0]) .getStation).host.results = #v[40, 0, 10000, 0x0023, 3, 9] := by
  decide +kernel

/-- R108: active-low with fault action HOLD; what they were in RESULT0 and RESULT1; an inactive active-low pin is
high (R109). -/
theorem test_set_output :
    let t := then_ (asks State.reset 0x07 #v[2, 1, 1, 0, 0, 0, 0, 0]) .setOutput
    t.host.results = #v[0, 0, 0, 0, 0, 0] ∧ t.outPin 2 = some true := by decide +kernel

/-- R118: OUT3 forced ACTIVE in SETUP. -/
theorem test_force_output :
    let t := then_ (asks State.reset 0x08 #v[3, 2, 0, 0, 0, 0, 0, 0]) .forceOutput
    t.outPin 3 = some true ∧ t.host.results = #v[0, 8, 0, 8, 0, 0] := by decide +kernel

/-- R6: both positions, low half first. -/
theorem test_preset_position :
    let t := then_ (asks State.reset 0x09 #v[0x5678, 0x1234, 0, 0, 0, 0, 0, 0]) .presetPosition
    t.position.counter = 0x12345678 ∧ t.position.tracking = 0x12345678 := by decide +kernel

/-! ### Operating control -/

/-- SETUP with the lane and the two stations of the worked sequences configured. -/
def configured : State :=
  { line .setup 0 with
    lanes := upd State.reset.lanes 0 (fun _ => { lane0 with detector := .off })
    stations := upd (upd State.reset.stations 0 (fun _ => { glue with runtime := .disabled })) 1
      (fun _ => { pusher with runtime := .disabled }) }

/-- R137: stations 0 and 1 in RESULT0, and lane 0 with its sensor covered in RESULT1. -/
theorem test_start_done :
    (then_ (asks (det0 configured) 0x10 #v[0, 0, 0, 0, 0, 0, 0, 0]) .start).host.results = #v[3, 1, 0, 0, 0, 0] := by
  decide +kernel

/-- R105: with no lane enabled check 1 fails. -/
theorem test_start_config_error :
    let t := then_ (asks State.reset 0x10 #v[0, 0, 0, 0, 0, 0, 0, 0]) .start
    t.host.resultCode = .configError ∧ t.host.results = #v[1, 0, 0, 0, 0, 0] := by decide +kernel

/-- R138: STOP tells the state it left, the items and the entries abandoned. -/
theorem test_stop :
    let t := then_ (asks twoItems 0x11 #v[0, 0, 0, 0, 0, 0, 0, 0]) .stop
    t.host.results = #v[1, 2, 7, 0, 0, 0] ∧ t.control.op = .setup ∧ t.slotsUsed = 0 := by decide +kernel

/-- R139, R169: HALT is cause 6, bit 13 of HALT_CAUSE. -/
theorem test_halt :
    (then_ (asks running 0x12 #v[0, 0, 0, 0, 0, 0, 0, 0]) .halt).registerRead 7 = 0x2006 := by decide +kernel

/-- The list of the halt sequence at 1,470: three entries reached. -/
def coasted : State :=
  with_ (line .halted 1470) [{ item1 with final := true }, { item2 with verdict := .pass, source := .host }]
    [{ entry (.off 0 false) 1340 1 with reached := true }, { entry .deadline 1350 2 with reached := true },
     { entry (.on 0) 1450 2 with reached := true }, entry (.on 1) 1500 1, entry (.on 1) 1650 2, entry .retire 1800 1,
     entry .retire 1950 2]

/-- The halt sequence: RESULT0 3, RESULT1 1, RESULT2 1; ACTION_MISSED and RESUMED; 6 slots; item 2 MISSED. The belt
re-travels here, so that no lane samples. -/
theorem test_resume_catches_up :
    let t := then_ (asks (reversed coasted 1) 0x13 #v[0, 0, 0, 0, 0, 0, 0, 0]) .resume
    t.host.results = #v[3, 1, 1, 0, 0, 0] ∧ t.slotsUsed = 6 ∧ t.queue.items.map Item.missed = [false, true]
      ∧ t.events.records.map (fun r => (r.kind, r.auxA, r.auxB)) = [(.actionMissed, 0, 0), (.resumed, 3, 1)] := by
  decide +kernel

/-- R146: with HLD asserted RESUME ends with HALT_ACTIVE. -/
theorem test_resume_halt_active :
    let s := { halted with control := { halted.control with hldAsserted := true } }
    (then_ (asks s 0x13 #v[0, 0, 0, 0, 0, 0, 0, 0]) .resume).host.resultCode = .haltActive := by decide +kernel

/-- R148: REINIT tells the state it left, and the next tag is 1 again. -/
theorem test_reinit :
    let t := then_ (asks twoItems 0x2F #v[0, 0, 0, 0, 0, 0, 0, 0]) .reinit
    t.host.results = #v[1, 0, 0, 0, 0, 0] ∧ t.queue.nextTag = 1 ∧ t.host.intStatus = 1 := by decide +kernel

/-! ### Items, stations, counts -/

/-- The two-item sequence at 1,100: DECIDE PASS of an UNDECIDED item ends with DONE and RESULT0 0. -/
theorem test_decide_done :
    let t := then_ (asks (with_ running [newItem 1 0 1000 0] []) 0x20 #v[1, 0, 1, 0, 0xFF, 0, 0, 0]) .decideItem
    t.host.resultCode = .done ∧ t.host.results = #v[0, 0, 0, 0, 0, 0] ∧ t.queue.items = [item1] := by decide +kernel

/-- The deadline sequence, advance first: TOO_LATE with PASS, DEFAULT, reason 0. -/
theorem test_decide_too_late :
    let i := { newItem 5 0 2000 0 with verdict := .pass, source := .default, final := true }
    let t := then_ (asks (with_ running [i] []) 0x20 #v[5, 0, 2, 0x12, 0xFF, 0, 0, 0]) .decideItem
    t.host.resultCode = .tooLate ∧ t.host.results = #v[1, 2, 0, 0, 0, 0] := by decide +kernel

/-- R55, R56: item 1 is cancelled with two ON entries and its RETIRE. -/
theorem test_cancel :
    let t := then_ (asks twoItems 0x21 #v[1, 0, 0, 0, 0, 0, 0, 0]) .cancel
    t.host.results = #v[3, 0, 1, 1, 0, 0] ∧ t.queue.items = [item2] ∧ t.slotsUsed = 6 := by decide +kernel

/-- R58: part 0 of an item without a trailing position. -/
theorem test_query_item :
    (then_ (asks twoItems 0x22 #v[2, 0, 0, 0, 0, 0, 0, 0]) .queryItem).host.results
      = #v[1150, 0, 0xFFFF, 0xFFFF, 0xFFFF, 0xFFFF] := by decide +kernel

/-- R93: taking station 0 out of service removes its two ON entries. -/
theorem test_station_enable_off :
    let t := then_ (asks twoItems 0x23 #v[0, 0, 0, 0, 0, 0, 0, 0]) .stationEnable
    t.host.results = #v[1, 2, 0, 0, 0, 0] ∧ t.slotsUsed = 7 := by decide +kernel

/-- R94, R188: a FAILED station revived starts with miss count 0. -/
theorem test_station_enable_on :
    let s := station0 running (fun st => { st with runtime := .failed, misses := 3 })
    let t := then_ (asks s 0x23 #v[0, 1, 0, 0, 0, 0, 0, 0]) .stationEnable
    t.host.results = #v[2, 0, 0, 0, 0, 0] ∧ t.stations[(0 : StationId)].misses = 0 := by decide +kernel

/-- R180: 2 items, 7 entries, 4 reservations, 181 free slots. -/
theorem test_read_counts :
    (then_ (asks twoItems 0x24 #v[0, 0, 0, 0, 0, 0, 0, 0]) .readCounts).host.results = #v[2, 7, 4, 0, 0, 181] := by
  decide +kernel

/-- R33: group 0 of lane 0, read and cleared. -/
theorem test_read_lane_counters :
    let s := then_ running (.detInputChange 0 true)
    let t := then_ (asks s 0x25 #v[0, 0, 1, 0, 0, 0, 0, 0]) .readLaneCounters
    t.host.results = #v[1, 0, 0, 1, 0, 0] ∧ t.lanes[(0 : LaneId)].counters = .zero := by decide +kernel

/-- R177: a code outside the table. -/
theorem test_unknown_command :
    (then_ (asks running 0x55 #v[0, 0, 0, 0, 0, 0, 0, 0]) .unknownCommand).host.resultCode = .badCommand := by decide +kernel

/-! ### Idle steps -/

/-- R178: with TICK_DIV 1 every idle step is a tick, and a time pulse of 2 has 1 left. -/
theorem test_idle_tick :
    let s := station0 { running with globals := { running.globals with tickDiv := 1 } } (fun st => { st with pulse := pulse 2 })
    (match step s with
      | .next t => t.stations[(0 : StationId)].pulse
      | .fault _ => none
      | .refused _ => none) = pulse 1 := by decide +kernel

/-! ### Witnesses: states that meet the hypotheses of the statements, clause by clause, at boundary values -/

theorem quiet_of {s : State} (h : s.running = true ∧ s.control.requests = []) : s.Quiet := h

/-- The pair is a step, in both modes and with the invert on or off. -/
theorem step_of {s : State} (forward : Bool) (h : s.position.refA = false ∧ s.position.refB = false) :
    s.IsStep forward (pairOf s forward).1 (pairOf s forward).2 := by
  unfold State.IsStep pairOf
  cases s.position.mode <;> cases s.position.invert <;> cases forward <;> rw [h.1, h.2] <;> decide

theorem advances_of {s : State} {op : OpState}
    (h : (s.running = true ∧ s.control.requests = []) ∧ s.control.op = op ∧ s.reverse = 0
      ∧ s.position.refA = false ∧ s.position.refB = false) : s.Advances op (pairOf s true).1 (pairOf s true).2 :=
  ⟨h.1, h.2.1, step_of true h.2.2.2, h.2.2.1⟩

theorem tags_station0 {s : State} {f : Station → Station} (h : s.TagsSound) : (station0 s f).TagsSound :=
  ⟨h.1, h.2, h.3, h.4⟩

theorem tags_of {s : State}
    (h : s.queue.items.length ≤ 64 ∧ (s.queue.items.map Item.tag).Nodup ∧ (∀ i ∈ s.queue.items, i.tag ≠ 0)
      ∧ s.queue.nextTag ≠ 0) : s.TagsSound :=
  ⟨h.1, h.2.1, h.2.2.1, h.2.2.2⟩

theorem config_of {s : State}
    (hl : ∀ l : LaneId, s.lanes[l].config.decision ≠ 0
      ∧ s.lanes[l].config.filter.toNat < s.lanes[l].config.exit.toNat
      ∧ (s.lanes[l].config.minLength ≠ 0 → s.lanes[l].config.maxLength ≠ 0 →
          s.lanes[l].config.minLength.toNat < s.lanes[l].config.maxLength.toNat))
    (hs : ∀ n : StationId, s.stations[n].config.offset ≠ 0 ∧ s.stations[n].config.window ≠ 0
      ∧ (s.stations[n].config.mode ≠ .item → s.stations[n].config.pulseWord ≠ 0 ∧ s.stations[n].config.capWord = 0)
      ∧ (s.stations[n].config.mode = .item → s.stations[n].config.capWord ≠ 0))
    (hg : s.globals.tickDiv ≠ 0) : s.ConfigSound :=
  ⟨fun l => ⟨(hl l).1, (hl l).2.1, (hl l).2.2⟩, fun n => ⟨(hs n).1, (hs n).2.1, (hs n).2.2.1, (hs n).2.2.2⟩, hg⟩

theorem events_of {s : State}
    (h : s.events.records.length ≤ 31 ∧ (s.events.records = [] → s.events.index = 0)
      ∧ 1 ≤ s.events.threshold.toNat ∧ s.events.threshold.toNat ≤ 32) : s.EventsSound :=
  ⟨by omega, by omega, h.2.1, h.2.2⟩

/-- Lane 0 not enabled: check 2 fails for station 0. -/
def laneOff : State := config0 running (fun c => { c with enabled := false })

/-- The states whose commands the witnesses below take. -/
theorem they_run : State.reset.Quiet ∧ running.Quiet ∧ halted.Quiet ∧ twoItems.Quiet ∧ configured.Quiet ∧ laneOff.Quiet := by
  unfold State.Quiet
  decide +kernel

/-- A state whose next free step is the model's clock. -/
def tickAt (phase : BitVec 8) (timeLeft : Word) : State :=
  station0 { running with globals := { running.globals with tickPhase := phase } }
    (fun st => { st with pulse := pulse 1, watches := [watch timeLeft] })

/-- A tick's last period, with the watch of station 0 at its last tick. -/
def expiring (misses limit : BitVec 4) (haltOnFail : Bool) : State :=
  station0 { running with globals := { running.globals with tickPhase := 15, haltOnFail := haltOnFail } } (fun st =>
    { st with watches := [watch 1, watch 2], misses := misses, config := { st.config with missLimit := limit } })

/-- Below the limit, without a limit, and at the limit with HALT_ON_FAIL off and on. -/
def expiringRows : List (BitVec 4 × BitVec 4 × Bool) := [(2, 4, true), (15, 0, true), (2, 3, false), (14, 15, true)]

theorem witness_IdleStepIsAClockPeriod :
    (dark.pending = [] ∧ dark.running = false)
    ∧ ((tickAt 14 2).pending = [] ∧ (tickAt 14 2).Quiet
        ∧ (tickAt 14 2).globals.tickPhase.toNat + 1 < (tickAt 14 2).globals.tickDiv.toNat)
    ∧ ((tickAt 15 2).pending = [] ∧ (tickAt 15 2).Quiet
        ∧ (tickAt 15 2).globals.tickDiv.toNat ≤ (tickAt 15 2).globals.tickPhase.toNat + 1
        ∧ ∀ n : StationId, ∀ w ∈ (tickAt 15 2).stations[n].watches, 2 ≤ w.timeLeft.toNat)
    ∧ (∀ p ∈ expiringRows,
        let s := expiring p.1 p.2.1 p.2.2
        s.pending = [] ∧ s.running = true ∧ s.control.requests = [] ∧ s.queue.items = [] ∧ s.queue.nextTag ≠ 0
        ∧ s.globals.tickDiv.toNat ≤ s.globals.tickPhase.toNat + 1
        ∧ s.stations[(0 : StationId)].watches = [watch 1, watch 2] ∧ (watch 1).timeLeft.toNat ≤ 1
        ∧ (∀ x ∈ [watch 2], 2 ≤ x.timeLeft.toNat) ∧ (∀ m : StationId, m ≠ 0 → s.stations[m].watches = [])
        ∧ ∀ m : StationId, s.stations[m].pulse = none)
    ∧ (∀ p ∈ expiringRows, (expiring p.1 p.2.1 p.2.2).TagsSound)
    ∧ ¬ (expiring 2 4 true).AtLastMiss 0 ∧ ¬ (expiring 15 0 true).AtLastMiss 0
    ∧ (expiring 2 3 false).AtLastMiss 0 ∧ (expiring 2 3 false).globals.haltOnFail = false
    ∧ (expiring 14 15 true).AtLastMiss 0 ∧ (expiring 14 15 true).globals.haltOnFail = true := by
  refine ⟨by decide +kernel, ⟨rfl, quiet_of (by decide +kernel), by decide +kernel⟩,
    ⟨rfl, quiet_of (by decide +kernel), by decide +kernel, ?_⟩,
    by decide +kernel, fun p _ => tags_of (s := expiring p.1 p.2.1 p.2.2)
      (by decide +kernel : running.queue.items.length ≤ 64 ∧ (running.queue.items.map Item.tag).Nodup
        ∧ (∀ i ∈ running.queue.items, i.tag ≠ 0) ∧ running.queue.nextTag ≠ 0), ?_⟩
  · have h : ∀ n : StationId, ((tickAt 15 2).stations[n].watches.all fun w => decide (2 ≤ w.timeLeft.toNat)) = true := by
      decide +kernel
    exact fun n w hw => of_decide_eq_true (List.all_eq_true.mp (h n) w hw)
  · unfold State.AtLastMiss State.nextMisses
    decide +kernel

/-- R96, R129, R140: a station that fails at a tick with HALT_ON_FAIL on halts the part. -/
theorem test_idle_tick_halts :
    (match step (expiring 14 15 true) with
      | .next t => (t.control.op, t.control.firstCause, t.events.records.map EventRecord.kind)
      | .fault _ => (.setup, none, [])
      | .refused _ => (.setup, none, []))
      = (.halted, some .stationFail, [.confirmMissing, .stationFailed, .halted]) := by decide +kernel

theorem witness_PowerOnResetGivesTheDefaults :
    dark.power = .off ∧ { dark with power := .starting }.power = .starting ∧ running.power ≠ .off := by decide +kernel

theorem witness_HardwareResetGivesTheDefaults :
    running.running = true ∧ held.power = .on ∧ held.pins.resetN = false ∧ held.running = false
    ∧ { dark with power := .starting }.running = false ∧ { dark with power := .starting }.power ≠ .on := by decide +kernel

theorem witness_NothingIsTakenInReset :
    isResetCommand .posLowRead = false ∧ held.running = false ∧ held.inReset = true ∧ dark.running = false
    ∧ (held.unheard (.confirmEdge 3 true)).pins.cfm[(3 : InputId)] = true
    ∧ (held.unheard .hldAssert).pins.hld = false := by
  decide +kernel

/-- SETUP with the decoder reference at place `k` of the sequence, the invert on, the counter about to wrap. -/
def place (k : Fin 4) : State :=
  { State.reset with position := { State.reset.position with
      refA := (quadSequence k).1, refB := (quadSequence k).2, invert := true, counter := 0, tracking := 0 } }

theorem witness_QuadratureStepsInSetup : ∀ k : Fin 4,
    (place k).running = true ∧ (place k).control.op = .setup ∧ (place k).position.mode = .quad
      ∧ (place k).control.requests = [] ∧ ((place k).position.refA, (place k).position.refB) = quadSequence k := by
  decide +kernel

/-- SETUP in PULSE_DIR mode with the reference of ENC_A at a level. -/
def pulseDir (refA : Level) : State :=
  { State.reset with position := { State.reset.position with mode := .pulseDir, refA := refA } }

theorem witness_PulseDirectionStepsInSetup : ∀ refA,
    (pulseDir refA).running = true ∧ (pulseDir refA).control.op = .setup ∧ (pulseDir refA).position.mode = .pulseDir
      ∧ (pulseDir refA).control.requests = [] ∧ (pulseDir refA).position.refA = refA := by decide +kernel

theorem witness_EncoderErrorIsCounted : ∀ s ∈ [State.reset, running, halted, { running with pending := [.hldRelease] }],
    s.running = true ∧ s.position.mode = .quad ∧ s.control.requests = [] := by decide +kernel

/-- The operating states of that list, in TRACKING with no command waiting and with one. -/
theorem witness_EncoderErrorIsCounted_states :
    State.reset.control.op = .setup ∧ running.control.op = .tracking ∧ running.pending = [] ∧ halted.control.op = .halted := by
  decide +kernel

theorem witness_StepsInTracking : ∀ mode invert,
    -- no step: the same pair, and in PULSE_DIR a change of ENC_B alone
    ((inMode running .quad invert).IsNoStep false false ∧ (inMode running .pulseDir invert).IsNoStep false true)
    ∧ (∀ amount forward, (inMode (reversed running amount) mode invert).Quiet
        ∧ (inMode (reversed running amount) mode invert).control.op = .tracking
        ∧ (inMode (reversed running amount) mode invert).IsStep forward
            (pairOf (inMode (reversed running amount) mode invert) forward).1
            (pairOf (inMode (reversed running amount) mode invert) forward).2)
    ∧ (let s := inMode running mode invert
       s.Advances .tracking (pairOf s true).1 (pairOf s true).2
        ∧ (∀ l, (s.advanced (pairOf s true).1 (pairOf s true).2).laneDue l = false)
        ∧ (∀ e ∈ s.list.entries, e.fire ≠ s.position.tracking + 1)
        ∧ s.reverse.toNat < s.position.tolerance.toNat)
    ∧ 2 ≤ (inMode (reversed running 2) mode invert).reverse.toNat
    ∧ ((inMode (reversed running 1) mode invert).reverse = 1 ∧ ∀ l, (inMode (reversed running 1) mode invert).LaneSettled l)
    ∧ (inMode (reversed running 16) mode invert).reverse.toNat
        = (inMode (reversed running 16) mode invert).position.tolerance.toNat
    ∧ ((inMode halted mode invert).Quiet ∧ (inMode halted mode invert).control.op = .halted
        ∧ (inMode halted mode invert).IsStep false (pairOf (inMode halted mode invert) false).1
            (pairOf (inMode halted mode invert) false).2) := by
  intro mode invert
  refine ⟨⟨.inl ⟨rfl, rfl, rfl⟩, .inr ⟨rfl, .inr rfl⟩⟩,
    fun _ forward => ⟨⟨rfl, rfl⟩, rfl, step_of forward ⟨rfl, rfl⟩⟩, ⟨advances_of ?_, ?_, ?_, ?_⟩, ?_, ⟨?_, ?_⟩, ?_,
    ⟨rfl, rfl⟩, rfl, step_of false ⟨rfl, rfl⟩⟩
  all_goals cases mode <;> cases invert
  all_goals first
    | decide +kernel
    | (unfold State.LaneSettled; decide +kernel)

/-- HALTED one count before an ON entry. -/
def coasting : State := with_ halted [item1] [entry (.on 0) 1001 1, entry .retire 1800 1]

theorem witness_HaltedAdvanceMarksEntries : ∀ mode invert,
    (inMode coasting mode invert).Advances .halted (pairOf (inMode coasting mode invert) true).1
      (pairOf (inMode coasting mode invert) true).2
    ∧ (∃ e ∈ (inMode coasting mode invert).list.entries, e.fire = (inMode coasting mode invert).position.tracking + 1)
    ∧ ((inMode (reversed halted 1) mode invert).Quiet ∧ (inMode (reversed halted 1) mode invert).control.op = .halted
        ∧ (inMode (reversed halted 1) mode invert).IsStep true (pairOf (inMode (reversed halted 1) mode invert) true).1
            (pairOf (inMode (reversed halted 1) mode invert) true).2
        ∧ (inMode (reversed halted 1) mode invert).reverse ≠ 0) := by
  intro mode invert
  refine ⟨advances_of ⟨⟨rfl, rfl⟩, rfl, ?_, rfl, rfl⟩, ⟨entry (.on 0) 1001 1, .head _, rfl⟩, ⟨rfl, rfl⟩, rfl,
    step_of true ⟨rfl, rfl⟩, ?_⟩
  all_goals cases mode <;> cases invert <;> decide +kernel

theorem witness_PlacingKeepsListOrder : twoItems.list.entries.Pairwise (Entry.NotAfter twoItems.list.firingPoint) := by
  unfold Entry.NotAfter
  decide +kernel

/-- A TRACKING state one count before an entry of item 1. -/
def before (kind : EntryKind) : State :=
  with_ running [item1] [entry kind 1001 1, entry (.on 1) 1500 1, entry .retire 1800 1]

/-- The configuration of the line is in range. -/
theorem witness_config (op : OpState) (p : Pos) : (line op p).ConfigSound :=
  config_of (by change ∀ l : LaneId, (line .tracking 0).lanes[l].config.decision ≠ 0
      ∧ (line .tracking 0).lanes[l].config.filter.toNat < (line .tracking 0).lanes[l].config.exit.toNat
      ∧ ((line .tracking 0).lanes[l].config.minLength ≠ 0 → (line .tracking 0).lanes[l].config.maxLength ≠ 0 →
          (line .tracking 0).lanes[l].config.minLength.toNat < (line .tracking 0).lanes[l].config.maxLength.toNat)
                decide +kernel)
    (by change ∀ n : StationId, (line .tracking 0).stations[n].config.offset ≠ 0
          ∧ (line .tracking 0).stations[n].config.window ≠ 0
          ∧ ((line .tracking 0).stations[n].config.mode ≠ .item →
              (line .tracking 0).stations[n].config.pulseWord ≠ 0 ∧ (line .tracking 0).stations[n].config.capWord = 0)
          ∧ ((line .tracking 0).stations[n].config.mode = .item → (line .tracking 0).stations[n].config.capWord ≠ 0)
        decide +kernel)
    (show (16 : BitVec 8) ≠ 0 by decide)

theorem witness_AdvanceFiresWhatItReaches : ∀ mode invert,
    (let s := inMode twoItems mode invert
     s.Advances .tracking (pairOf s true).1 (pairOf s true).2 ∧ s.ConfigSound
      ∧ (∀ l, (s.advanced (pairOf s true).1 (pairOf s true).2).laneDue l = false)
      ∧ ∃ e ∈ s.list.entries, e.fire ≠ s.position.tracking + 1 ∧ e.isOn = false)
    ∧ (∀ k, let s := inMode (before k) mode invert
        s.Advances .tracking (pairOf s true).1 (pairOf s true).2 ∧ s.ConfigSound
        ∧ s.list.entries = [] ++ entry k 1001 1 :: [entry (.on 1) 1500 1, entry .retire 1800 1]
        ∧ (entry k 1001 1).fire = s.position.tracking + 1
        ∧ ∀ x ∈ [] ++ [entry (.on 1) 1500 1, entry .retire 1800 1], x.fire ≠ s.position.tracking + 1)
    ∧ (∀ k ∈ [EntryKind.on 0, .deadline, .retire, .off 0 true], let s := inMode (before k) mode invert
        ∀ l, (s.advanced (pairOf s true).1 (pairOf s true).2).laneDue l = false) := by
  intro mode invert
  have config (s : State) (p : Pos) (h : s.lanes = (line .tracking p).lanes ∧ s.stations = (line .tracking p).stations
      ∧ s.globals = (line .tracking p).globals) : s.ConfigSound :=
    ⟨h.1 ▸ (witness_config .tracking p).1, h.2.1 ▸ (witness_config .tracking p).2, h.2.2 ▸ (witness_config .tracking p).3⟩
  refine ⟨⟨advances_of ⟨⟨rfl, rfl⟩, rfl, ?_, rfl, rfl⟩, config _ 1299 ⟨rfl, rfl, rfl⟩, ?_, ?_⟩,
    fun k => ⟨advances_of ⟨⟨rfl, rfl⟩, rfl, (by decide : (1000 : Pos) - 1000 = 0), rfl, rfl⟩, config _ 1000 ⟨rfl, rfl, rfl⟩, rfl, rfl, ?_⟩, ?_⟩
  · exact (by decide : (1299 : Pos) - 1299 = 0)
  · cases mode <;> cases invert <;> decide +kernel
  · exact ⟨entry .deadline 1350 2, by simp [inMode, twoItems, with_],
      (by decide : (1350 : Pos) ≠ 1299 + 1), rfl⟩
  · change ∀ x ∈ [entry (.on 1) 1500 1, entry .retire 1800 1], x.fire ≠ 1000 + 1
    decide
  · cases mode <;> cases invert <;> decide +kernel

theorem witness_HoldersEndOneByOne :
    (before (.off 0 false)).list.entries = [] ++ entry (.off 0 false) 1001 1 :: [entry (.on 1) 1500 1, entry .retire 1800 1]
    ∧ (tickAt 0 1).Quiet ∧ (tickAt 0 1).stations[(0 : StationId)].pulse = some { left := 1, reloaded := none }
    ∧ (∀ here, (none : Option Pos) ≠ some here) :=
  ⟨by decide +kernel, quiet_of (by decide +kernel), by decide +kernel, fun _ h => by cases h⟩

/-- A state whose one item is final, or not. -/
def oneItem (final : Bool) : State := with_ running [{ item1 with final := final }, item2] []

theorem witness_items : (∀ b, (oneItem b).TagsSound) ∧ twoItems.TagsSound :=
  ⟨fun b => tags_of (by cases b <;> decide +kernel), tags_of (by decide +kernel)⟩

theorem witness_DeadlineClosesTheVerdict :
    ((oneItem true).TagsSound ∧ { item1 with final := true } ∈ (oneItem true).queue.items)
    ∧ ((oneItem false).TagsSound ∧ item1 ∈ (oneItem false).queue.items ∧ item1.final = false
        ∧ item1.verdict ≠ .undecided)
    ∧ (item2 ∈ (oneItem false).queue.items ∧ item2.final = false ∧ item2.verdict = .undecided) :=
  ⟨⟨witness_items.1 _, by decide +kernel⟩, ⟨witness_items.1 _, by decide +kernel⟩, by decide +kernel⟩

/-- A final item under its sensor, and one that is not final and UNDECIDED. -/
theorem witness_RetireFreesTheItem :
    (let s := detector0 (oneItem true) (.occupied (some 1) none)
     s.TagsSound ∧ { item1 with final := true } ∈ s.queue.items ∧ s.linked 0 1 = true)
    ∧ ((oneItem true).TagsSound ∧ item2 ∈ (oneItem true).queue.items ∧ item2.final = false
        ∧ item2.verdict = .undecided ∧ (oneItem true).linked 0 2 = false) :=
  ⟨⟨tags_of (by decide +kernel), by decide +kernel⟩, witness_items.1 _, by decide +kernel⟩

/-- Station 0 with a confirm input, a pulse mode, and watches. -/
def watched (mode : PulseMode) (watches : List Watch) (misses : BitVec 4) : State :=
  station0 (oneItem false) (fun st =>
    { st with watches := watches, misses := misses
              config := { st.config with mode := mode, capWord := if mode = .item then 500 else 0, confirm := some 3 } })

theorem matches_of {c : StationConfig} {i : Item}
    (h : (c.selector = .any ∨ (c.selector = .pass ∧ i.verdict = .pass) ∨ (c.selector = .reject ∧ i.verdict = .reject))
      ∧ c.classMask.getLsbD i.cls.val = true) : c.Matches i := h

theorem witness_OnEntryActivates :
    ((oneItem false).TagsSound ∧ item1 ∈ (oneItem false).queue.items)
    ∧ ¬ (oneItem false).stations[(1 : StationId)].config.Matches item1
    ∧ ((oneItem false).stations[(0 : StationId)].config.Matches item1
        ∧ (oneItem false).stations[(0 : StationId)].config.confirm = none
        ∧ ∃ placed, (oneItem false).HolderPlaced 0 1300 item1 placed)
    ∧ (∀ mode ∈ [PulseMode.count, .time, .item], ∀ misses,
        (watched mode [watch 1, watch 2, watch 3] misses).TagsSound
        ∧ item1 ∈ (watched mode [watch 1, watch 2, watch 3] misses).queue.items
        ∧ (watched mode [watch 1, watch 2, watch 3] misses).stations[(0 : StationId)].watches.length < 4
        ∧ (watched mode [watch 1, watch 2, watch 3] misses).stations[(0 : StationId)].config.Matches item1
        ∧ (watched mode [watch 1, watch 2, watch 3] misses).stations[(0 : StationId)].config.confirm = some 3
        ∧ ∃ placed, (watched mode [watch 1, watch 2, watch 3] misses).HolderPlaced 0 1300 item1 placed) := by
  refine ⟨⟨witness_items.1 _, by decide +kernel⟩, ?_, ⟨matches_of (by decide +kernel), by decide +kernel, _, .inl ⟨rfl, rfl⟩⟩, ?_⟩
  · unfold StationConfig.Matches
    decide +kernel
  · intro mode hm misses
    refine ⟨tags_station0 (witness_items.1 false), show item1 ∈ (oneItem false).queue.items by decide +kernel, ?_, ?_, ?_, ?_⟩
    · change 3 < 4
      decide
    · exact matches_of ⟨.inl rfl, show (0xFFFF#16).getLsbD 0 = true by decide⟩
    · rfl
    · simp only [List.mem_cons, List.not_mem_nil, or_false] at hm
      obtain rfl | rfl | rfl := hm
      · exact ⟨_, .inl ⟨rfl, rfl⟩⟩
      · exact ⟨_, .inr (.inl ⟨rfl, rfl⟩)⟩
      · exact ⟨_, .inr (.inr (.inl ⟨rfl, rfl, rfl⟩))⟩

/-- Four watches pending: one more miss below the limit of 3, and the one that reaches it. -/
theorem witness_OnEntryActivates_overtaking :
    (∀ misses, (watched .count [watch 9, watch 8, watch 7, watch 6] misses).stations[(0 : StationId)].runtime = .enabled
      ∧ (watched .count [watch 9, watch 8, watch 7, watch 6] misses).stations[(0 : StationId)].watches
          = watch 9 :: [watch 8, watch 7, watch 6]
      ∧ ([watch 8, watch 7, watch 6] : List Watch).length = 3)
    ∧ ¬ (watched .count [watch 9, watch 8, watch 7, watch 6] 1).AtLastMiss 0
    ∧ (watched .count [watch 9, watch 8, watch 7, watch 6] 2).AtLastMiss 0 := by
  refine ⟨fun _ => ⟨rfl, rfl, rfl⟩, ?_⟩
  unfold State.AtLastMiss State.nextMisses
  decide +kernel

/-- Station 0 of the ITEM-mode sequence: cap 500, tail offset 2. -/
def itemMode (s : State) : State :=
  station0 s (fun st => { st with config := { st.config with mode := .item, pulseWord := 2, capWord := 500 } })

theorem witness_ItemModeFollowsTheProduct :
    (itemMode (oneItem false)).TagsSound ∧ item1 ∈ (itemMode (oneItem false)).queue.items
    ∧ (itemMode (oneItem false)).stations[(0 : StationId)].config.mode = .item
    ∧ (itemMode (oneItem false)).stations[(0 : StationId)].config.confirm = none
    ∧ (itemMode (oneItem false)).stations[(0 : StationId)].config.Matches item1
    ∧ item1.trailing = none
    -- trailing positions at which the tail stands at the station, and one count beyond it
    ∧ ((1298 + (2 : Word).zeroExtend 32 - 1300 : Pos).toNat = 0)
    ∧ ((1299 + (2 : Word).zeroExtend 32 - 1300 : Pos).toNat = 1) :=
  ⟨tags_of (by decide +kernel), by decide +kernel, by decide +kernel, by decide +kernel, matches_of (by decide +kernel),
    by decide +kernel⟩

/-- Item 1 with its trailing position at a place, in a station of the ITEM mode. -/
theorem witness_ItemModeFollowsTheProduct_trailing :
    let i : Item := { item1 with trailing := some 1299, length := some 299 }
    (itemMode (with_ running [i] [])).TagsSound ∧ i ∈ (itemMode (with_ running [i] [])).queue.items :=
  ⟨tags_of (by decide +kernel), by decide +kernel⟩

/-- Station 0 with a watch whose time has run out, miss limit 3, and a miss count. -/
def missing (misses : BitVec 4) (limit : BitVec 4) : State :=
  station0 (oneItem false) (fun st =>
    { st with watches := [watch 0], misses := misses, config := { st.config with missLimit := limit, confirm := some 0 } })

theorem witness_WatchExpiryIsAMiss :
    (∀ p ∈ [(0#4, 3#4), (15#4, 0#4), (14#4, 15#4)], (missing p.1 p.2).running = true
        ∧ (missing p.1 p.2).control.requests = [] ∧ (missing p.1 p.2).stations[(0 : StationId)].watches = [watch 0])
    ∧ (∀ misses limit, (missing misses limit).TagsSound)
    ∧ ¬ (missing 0 3).AtLastMiss 0 ∧ ¬ (missing 15 0).AtLastMiss 0 ∧ (missing 14 15).AtLastMiss 0
    ∧ (missing 14 15).globals.haltOnFail = false
    ∧ ({ missing 14 15 with globals := { running.globals with haltOnFail := true } } : State).AtLastMiss 0 := by
  refine ⟨by decide +kernel, fun _ _ => tags_station0 (witness_items.1 false), ?_⟩
  unfold State.AtLastMiss State.nextMisses
  decide +kernel

theorem witness_ConfirmEdges :
    (missing 0 3).Quiet ∧ running.Quiet
    ∧ (∀ m : StationId, (missing 0 3).stations[m].runtime = .enabled
        ∧ (missing 0 3).stations[m].config.confirm = some 0 ↔ m = 0)
    ∧ (missing 0 3).cfmRef[(0 : InputId)] = (missing 0 3).stations[(0 : StationId)].config.falling
    ∧ (missing 0 3).stations[(0 : StationId)].watches = watch 0 :: []
    ∧ (∀ m : StationId, running.stations[m].runtime ≠ .enabled ∨ running.stations[m].config.confirm ≠ some 3)
    ∧ running.cfmRef[(3 : InputId)] = !true :=
  ⟨quiet_of (by decide +kernel), quiet_of (by decide +kernel), by decide +kernel⟩

/-- Lane 0 with max length 10. -/
def maxLength (s : State) : State := config0 s (fun c => { c with maxLength := 10 })

/-- An item with its leading edge at a position, under the sensor of lane 0. -/
def under (s : State) (leading : Pos) (candidate : Option Pos) : State :=
  detector0 (with_ (maxLength s) [newItem 1 0 leading 0] []) (.occupied (some 1) candidate)

theorem long_of {s : State} {l : LaneId} {i : Item}
    (h : s.lanes[l].config.maxLength ≠ 0 ∧ i.long = false
      ∧ (i.leading + s.lanes[l].config.maxLength.zeroExtend 32 = s.position.tracking
        ∨ 2 ^ 31 ≤ (i.leading + s.lanes[l].config.maxLength.zeroExtend 32 - s.position.tracking).toNat)) : s.LongHolds l i := h

theorem not_long_of {s : State} {l : LaneId} {i : Item}
    (h : ¬ (s.lanes[l].config.maxLength ≠ 0 ∧ i.long = false
      ∧ (i.leading + s.lanes[l].config.maxLength.zeroExtend 32 = s.position.tracking
        ∨ 2 ^ 31 ≤ (i.leading + s.lanes[l].config.maxLength.zeroExtend 32 - s.position.tracking).toNat))) :
    ¬ s.LongHolds l i := h

/-- The changes of an input. -/
theorem witness_DetectorFollowsItsInput :
    (running.Quiet ∧ running.pins.det[(0 : LaneId)] ≠ true)
    ∧ (halted.Quiet ∧ halted.blanked = true ∧ running.lanes[(1 : LaneId)].detector = .off)
    ∧ (let s := detector0 (det0 running) .waitClear
       s.blanked = false ∧ s.lanes[(0 : LaneId)].detector = .waitClear ∧ s.pins.det[(0 : LaneId)] ≠ false)
    ∧ (let s := config0 running (fun c => { c with filter := 1 })
       s.lanes[(0 : LaneId)].detector = .clear ∧ s.lanes[(0 : LaneId)].config.filter ≠ 0)
    ∧ (let s := detector0 (det0 running) (.filtering 999)
       s.blanked = false ∧ s.lanes[(0 : LaneId)].detector = .filtering 999 ∧ s.pins.det[(0 : LaneId)] ≠ false)
    -- one count short of the max length of 10, and at it
    ∧ (let s := under running 991 (some 999)
       s.Quiet ∧ s.blanked = false ∧ s.lanes[(0 : LaneId)].detector = .occupied (some 1) (some 999)
        ∧ s.pins.det[(0 : LaneId)] ≠ true ∧ ∀ i ∈ s.queue.items, ¬ s.LongHolds 0 i)
    ∧ (let s := under running 990 (some 999)
       s.TagsSound ∧ newItem 1 0 990 0 ∈ s.queue.items ∧ s.LongHolds 0 (newItem 1 0 990 0)) := by
  refine ⟨⟨quiet_of (by decide +kernel), by decide +kernel⟩, ⟨quiet_of (by decide +kernel), by decide +kernel⟩,
    by decide +kernel, by decide +kernel, by decide +kernel,
    ⟨quiet_of (by decide +kernel), by decide +kernel, by decide +kernel, by decide +kernel, ?_⟩,
    tags_of (by decide +kernel), by decide +kernel, long_of (by decide +kernel)⟩
  intro i hi
  have : i = newItem 1 0 991 0 := by simpa [under, detector0, with_] using hi
  exact this ▸ not_long_of (by decide +kernel)

theorem only_of {s : State}
    (h : (s.running = true ∧ s.control.requests = []) ∧ s.control.op = .tracking ∧ s.reverse = 0
      ∧ s.position.refA = false ∧ s.position.refB = false)
    (h' : (∀ m : LaneId, m ≠ 0 → (s.advanced (pairOf s true).1 (pairOf s true).2).laneDue m = false)
      ∧ ∀ e ∈ s.list.entries, e.fire ≠ s.position.tracking + 1) :
    s.OnlyLane 0 (pairOf s true).1 (pairOf s true).2 := ⟨advances_of h, h'.1, h'.2⟩

/-- Lane 0 with filter distance 4. -/
def filtered (s : State) : State := config0 s (fun c => { c with filter := 4 })

/-- The advances of one lane: an edge that comes to its filter distance, and an item that comes to its max length. -/
theorem witness_DetectorFollowsItsInput_advance :
    (let s := inMode (filtered (det0 (detector0 running (.filtering 997)))) .pulseDir true
     s.OnlyLane 0 (pairOf s true).1 (pairOf s true).2 ∧ s.inputActive 0 = true
      ∧ AtOrBehind (997 + s.lanes[(0 : LaneId)].config.filter.zeroExtend 32) (s.position.tracking + 1))
    ∧ (let s := filtered (under running 900 (some 997))
       s.OnlyLane 0 (pairOf s true).1 (pairOf s true).2 ∧ s.inputActive 0 = false
        ∧ AtOrBehind (997 + s.lanes[(0 : LaneId)].config.filter.zeroExtend 32) (s.position.tracking + 1))
    ∧ (let s := det0 (under running 991 none)
       s.OnlyLane 0 (pairOf s true).1 (pairOf s true).2 ∧ s.TagsSound ∧ newItem 1 0 991 0 ∈ s.queue.items ∧ s.inputActive 0 = true
        ∧ (s.advanced (pairOf s true).1 (pairOf s true).2).LongHolds 0 (newItem 1 0 991 0)) :=
  ⟨⟨only_of (by decide +kernel) (by decide +kernel), by decide +kernel, .inl (by decide +kernel)⟩,
    ⟨only_of (by decide +kernel) (by decide +kernel), by decide +kernel, .inl (by decide +kernel)⟩,
    only_of (by decide +kernel) (by decide +kernel), tags_of (by decide +kernel), by decide +kernel, by decide +kernel,
    long_of (by decide +kernel)⟩

/-- The re-samplings of a lane. -/
theorem witness_DetectorFollowsItsInput_resample :
    (running.blanked = false ∧ running.lanes[(0 : LaneId)].detector = .clear ∧ running.inputActive 0 = false)
    ∧ (det0 running).inputActive 0 = true ∧ running.lanes[(0 : LaneId)].config.filter = 0
    ∧ (detector0 running .waitClear).lanes[(0 : LaneId)].detector = .waitClear
    ∧ (detector0 running (.filtering 990)).lanes[(0 : LaneId)].detector = .filtering 990
    ∧ (let s := det0 (under running 990 none)
       s.blanked = false ∧ s.TagsSound ∧ newItem 1 0 990 0 ∈ s.queue.items ∧ s.inputActive 0 = true
        ∧ s.lanes[(0 : LaneId)].detector = .occupied (some 1) none ∧ s.LongHolds 0 (newItem 1 0 990 0))
    ∧ ∀ i ∈ (detector0 (det0 running) (.occupied none none)).queue.items, ¬ (detector0 (det0 running)
        (.occupied none none)).LongHolds 0 i :=
  ⟨by decide +kernel, by decide +kernel, by decide +kernel, by decide +kernel, by decide +kernel,
    ⟨by decide +kernel, tags_of (by decide +kernel), by decide +kernel, by decide +kernel, by decide +kernel,
      long_of (by decide +kernel)⟩,
    fun i hi => absurd (show i ∈ ([] : List Item) from hi) (by simp)⟩

/-- The pitch check passes at exactly the min pitch, and fails one count closer. -/
theorem pitch (previous : Pos) (pitch : Word) (long : Distance) :
    Lane.PitchShort
        { lane0 with previous := some previous, config := { lane0.config with minPitch := pitch, maxLength := long } } 1000
      ↔ pitch ≠ 0 ∧ (1000 - previous).toNat < pitch.toNat :=
  ⟨fun ⟨h, _, hq, hd⟩ => ⟨h, by cases hq; exact hd⟩, fun ⟨h, hd⟩ => ⟨h, _, rfl, hd⟩⟩

/-- Two live items at a min pitch of 50, the last edge 50 counts away, and the next tag held by a live item. -/
def pitched : State :=
  { oneItem false with
    queue := { (oneItem false).queue with nextTag := 1 }
    lanes := upd running.lanes 0 (fun x =>
      { lane0 with previous := some 950, config := { x.config with minPitch := 50, maxLength := 10 } }) }

theorem witness_LeadingEdgeIsAdmitted :
    pitched.TagsSound ∧ ¬ pitched.lanes[(0 : LaneId)].PitchShort 1000 ∧ pitched.queue.items.length < 64
    ∧ pitched.slotsUsed + pitched.slotNeed 0 ≤ 192
    -- the next tag and the one after it are held: the tag is 3
    ∧ (3 : Tag) = tagAfter^[2] pitched.queue.nextTag
    ∧ (∀ j, j < 2 → ∃ i ∈ pitched.queue.items, i.tag = tagAfter^[j] pitched.queue.nextTag)
    ∧ pitched.inputActive 0 = false
    -- accepted with the tracking position at the leading edge plus the max length
    ∧ (let s := det0 { pitched with position := { pitched.position with counter := 1010, tracking := 1010 } }
       s.blanked = false ∧ s.inputActive 0 = true ∧ s.LongHolds 0 (newItem 3 0 1000 0))
    -- at the change of an input
    ∧ pitched.Quiet ∧ pitched.blanked = false ∧ pitched.pins.det[(0 : LaneId)] ≠ true
    ∧ pitched.lanes[(0 : LaneId)].detector = .clear ∧ true ≠ pitched.lanes[(0 : LaneId)].config.activeLow
    ∧ pitched.lanes[(0 : LaneId)].config.filter = 0 := by
  refine ⟨tags_of (by decide +kernel), ?_, by decide +kernel, by decide +kernel, by decide +kernel, by decide +kernel,
    by decide +kernel, ⟨?_, by decide +kernel, long_of (by decide +kernel)⟩, quiet_of (by decide +kernel), by decide +kernel⟩
  · refine mt ?_ (show ¬ ((50 : Word) ≠ 0 ∧ (1000 - (950 : Pos)).toNat < (50 : Word).toNat) by decide)
    exact (show pitched.lanes[(0 : LaneId)]
      = { lane0 with previous := some 950, config := { lane0.config with minPitch := 50, maxLength := 10 } } by
        decide +kernel) ▸ (pitch 950 50 10).1
  · decide +kernel

/-- A full pool: 64 live items. -/
def fullPool : State :=
  { running with queue := { items := (List.range 64).map (fun k => newItem (BitVec.ofNat 16 (k + 1)) 1 0 0), nextTag := 65 } }

/-- A list with 187 slots in use: one fewer free than an item of lane 0 needs. -/
def fullList : State :=
  { running with list := { running.list with entries := List.replicate 187 (entry (.off 5 false) 2000 0) } }

theorem witness_LeadingEdgeIsRefused :
    (let s := { running with lanes := upd running.lanes 0 (fun x =>
        { x with previous := some 951, config := { x.config with minPitch := 50 } }) }
     s.Quiet ∧ s.control.op = .tracking ∧ s.reverse = 0 ∧ s.lanes[(0 : LaneId)].detector = .clear
      ∧ s.lanes[(0 : LaneId)].config.minPitch ≠ 0
      ∧ ∃ q, s.lanes[(0 : LaneId)].previous = some q ∧ (s.position.tracking - q).toNat < 50)
    ∧ (∀ s ∈ [fullPool, fullList], s.lanes[(0 : LaneId)].config.minPitch = 0 ∧ s.reverse = 0 ∧ s.control.op = .tracking
        ∧ s.running = true ∧ s.control.requests = [] ∧ s.pins.det[(0 : LaneId)] ≠ true
        ∧ s.lanes[(0 : LaneId)].detector = .clear ∧ true ≠ s.lanes[(0 : LaneId)].config.activeLow
        ∧ s.lanes[(0 : LaneId)].config.filter = 0)
    ∧ 64 ≤ fullPool.queue.items.length
    ∧ fullList.queue.items.length < 64 ∧ 192 < fullList.slotsUsed + fullList.slotNeed 0 :=
  ⟨⟨quiet_of (by decide +kernel), by decide +kernel, by decide +kernel, by decide +kernel, by decide +kernel,
    951, by decide +kernel⟩, by decide +kernel⟩

/-- The list has exactly room for one item. -/
theorem witness_LeadingEdgeIsAdmitted_boundary :
    (let s := { running with list := { running.list with entries := List.replicate 186 (entry (.off 5 false) 2000 0) } }
     s.slotsUsed + s.slotNeed 0 = 192) := by decide +kernel

theorem witness_TrailingEdgeIsReported :
    let s := det0 (oneItem false)
    s.TagsSound ∧ s.Quiet ∧ s.blanked = false ∧ s.pins.det[(0 : LaneId)] ≠ false
    ∧ false = s.lanes[(0 : LaneId)].config.activeLow ∧ s.lanes[(0 : LaneId)].config.filter = 0
    ∧ (detector0 s (.occupied none none)).lanes[(0 : LaneId)].detector = .occupied none none
    ∧ item1 ∈ s.queue.items
    ∧ (detector0 s (.occupied (some 1) none)).lanes[(0 : LaneId)].detector = .occupied (some item1.tag) none :=
  ⟨tags_of (by decide +kernel), quiet_of (by decide +kernel), by decide +kernel⟩

/-- R28, R52: at exactly the max length of 10 an item is LONG, one count below the min length of 6 it is SHORT, and each is
REJECT by the size policy. -/
theorem test_trailing_findings :
    let s (leading : Pos) := config0 (det0 (under running leading none))
      (fun c => { c with minLength := 6, sizePolicy := .reject })
    let found (leading : Pos) := ((s leading).acceptTrailing 0 (some 1) 1000).queue.items.map
      (fun i => (i.long, i.short, i.verdict, i.reason))
    found 990 = [(true, false, .reject, 0xF1)] ∧ found 991 = [(false, false, .undecided, 0)]
      ∧ found 995 = [(false, true, .reject, 0xF0)] ∧ found 994 = [(false, false, .undecided, 0)] := by decide +kernel

theorem witness_HaltRequestsByState :
    running.control.op = .tracking ∧ halted.control.op = .halted ∧ State.reset.control.op = .setup
    ∧ isResetCommand .hldAssert = false
    ∧ (let s := raised { running with pending := [.hldRelease] } [.stationFail, .overReverse]
       s.running = true ∧ s.control.op ≠ .setup ∧ s.control.requests ≠ []) := by decide +kernel

theorem witness_LineLevelFollowsTheState :
    halted.outputs[(0 : OutputId)].fault = .off
    ∧ (let s := { halted with outputs := upd halted.outputs 0 (fun x => { x with fault := .hold, held := some true }) }
       s.outputs[(0 : OutputId)].fault = .hold ∧ s.outputs[(0 : OutputId)].held = some true)
    ∧ running.running = true ∧ running.outputs[(0 : OutputId)].activeLow = false
    ∧ ({ running with outputs := upd running.outputs 0 (fun x => { x with activeLow := true }) } : State).outputs[(0 : OutputId)].activeLow
        = true := by decide +kernel

theorem witness_HoldInputHaltsTheLine : ∀ s ∈ [State.reset, running, halted],
    s.running = true ∧ s.control.requests = [] ∧ s.control.hldAsserted = false := by decide +kernel

/-- An EVENTS_LOST record of a count. -/
def lost (low high : Word) : EventRecord :=
  { kind := .eventsLost, unit := 0, low := 0, tag := 0, position := 0, auxA := low, auxB := high }

theorem witness_EventArrivesByFreeSlots :
    (let s := { running with events := { running.events with mask := 0x1FF } }
     record.kind.code ≤ 9 ∧ s.events.mask.getLsbD (record.kind.code - 1) = true)
    ∧ ¬ (record.kind.code ≤ 9 ∧ running.events.mask.getLsbD (record.kind.code - 1) = true)
    ∧ (queued running (List.replicate 30 record)).events.records.length + 2 ≤ 32
    ∧ (queued running (List.replicate 31 record)).events.records.length = 31
    ∧ (∀ low high, (queued running (List.replicate 31 record ++ [lost low high])).events.records.length = 32)
    ∧ joinWords (lost 0xFFFF 0xFFFF).auxA (lost 0xFFFF 0xFFFF).auxB = 0xFFFFFFFF
    ∧ joinWords (lost 0xFFFE 0xFFFF).auxA (lost 0xFFFE 0xFFFF).auxB ≠ 0xFFFFFFFF :=
  ⟨by decide +kernel, by decide +kernel, by simp [queued], by simp [queued], by simp [queued], by decide, by decide⟩

theorem witness_EventDataReads :
    (running.Quiet ∧ running.events.records = [])
    ∧ ((queued running [record]).Quiet ∧ (queued running [record]).events.records = record :: []
        ∧ (queued running [record]).events.index = 0)
    ∧ ({ queued running [record] with
          events := { (queued running [record]).events with index := 5 } } : State).events.index = 5 :=
  ⟨⟨they_run.2.1, by decide +kernel⟩, ⟨quiet_of (by decide +kernel), by decide +kernel⟩, by decide +kernel⟩

theorem witness_CommandWrite :
    running.Quiet ∧ running.host.busy = false ∧ (asks running 1 (.replicate 8 0)).Quiet
    ∧ (asks running 1 (.replicate 8 0)).host.busy = true
    ∧ isResetCommand .hldAssert = false ∧ ∃ t, exec .hldAssert running = .next t :=
  ⟨they_run.2.1, by decide +kernel, they_run.2.1, by decide +kernel, rfl, _, rfl⟩

theorem witness_RegisterWrites : running.Quiet ∧ (31#5).toNat ∈ [0, 1, 6, 7, 16, 17, 18, 19, 20, 21, 22, 25, 26,
    27, 28, 29, 30, 31] := ⟨they_run.2.1, by decide⟩

theorem witness_PositionReadsAreConsistent :
    running.Quiet ∧ held.running = false ∧ running.running = true ∧ running.EventsSound :=
  ⟨they_run.2.1, by decide +kernel, by decide +kernel, events_of (by decide +kernel)⟩

/-- Section 10.3: STATUS with lane 0 OCCUPIED in re-travel, POWER_ON still set, and the unused offsets. -/
theorem test_register_reads :
    let s := reversed (detector0 running (.occupied none none)) 1
    s.registerRead 2 = 0x0361 ∧ s.registerRead 1 = 3 ∧ s.registerRead 27 = 0 ∧ s.registerRead 22 = 0 := by decide +kernel

/-- A command in flight in a state that runs with no request on its way. -/
theorem awaits {s : State} (h : s.Quiet) (code : BitVec 8) (copy : Vector Word 8) :
    (asks s code copy).Awaits code := ⟨h, rfl, rfl⟩

theorem witness_RefusalsChangeNothing :
    ((asks running 0x55 (.replicate 8 0)).Awaits 0x55
      ∧ (0x55#8).toNat ∉ [0x01, 0x02, 0x03, 0x04, 0x05, 0x06, 0x07, 0x08, 0x09, 0x10, 0x11, 0x12, 0x13, 0x20, 0x21, 0x22,
          0x23, 0x24, 0x25, 0x2F])
    ∧ (∀ code, (asks running code (.replicate 8 0)).Awaits code ∧ (asks halted code (.replicate 8 0)).Awaits code
        ∧ (asks State.reset code (.replicate 8 0)).Awaits code)
    ∧ running.control.op = .tracking ∧ halted.control.op = .halted ∧ State.reset.control.op = .setup :=
  ⟨⟨awaits they_run.2.1 _ _, by decide⟩,
    fun _ => ⟨awaits they_run.2.1 _ _, awaits they_run.2.2.1 _ _, awaits they_run.1 _ _⟩, by decide +kernel⟩

theorem witness_GlobalSettings :
    (∀ copy, (asks State.reset 0x01 copy).Awaits 0x01 ∧ (asks State.reset 0x01 copy).control.op = .setup
      ∧ (asks State.reset 0x01 copy).host.copy = copy ∧ (asks running 0x02 copy).Awaits 0x02)
    ∧ GlobalInRange #v[255, 1, 0, 0x1FF, 0, 0, 0, 0] ∧ GlobalInRange #v[1, 0, 0xFFFF, 0, 0, 0, 0, 0]
    ∧ ¬ GlobalInRange #v[256, 0, 0, 0, 0, 0, 0, 0] ∧ ¬ GlobalInRange #v[1, 2, 0, 0, 0, 0, 0, 0] := by
  refine ⟨fun _ => ⟨awaits they_run.1 _ _, rfl, rfl, awaits they_run.2.1 _ _⟩, ?_⟩
  unfold GlobalInRange
  decide

theorem witness_LaneCommands :
    (∀ copy, (asks State.reset 0x03 copy).Awaits 0x03 ∧ (asks State.reset 0x03 copy).control.op = .setup
      ∧ (asks State.reset 0x03 copy).host.copy = copy ∧ (asks running 0x03 copy).Awaits 0x03
      ∧ (asks running 0x04 copy).Awaits 0x04)
    ∧ LaneInRange #v[0x0400, 0x3009, 0, 0, 0, 1, 5, 0] ∧ ¬ LaneInRange #v[0x0400, 0x3009, 0, 0, 0, 1, 4, 0]
    ∧ ¬ LaneInRange #v[0, 0x4009, 0, 0, 0, 1, 5, 0] ∧ ¬ LaneInRange #v[0, 0x0001, 0, 0, 0, 1, 5, 0]
    -- the lane and part words of GET_LANE at the ends of their ranges
    ∧ (3 : LaneId).val = (3#16).toNat ∧ 3 < (4#16).toNat ∧ 1 < (2#16).toNat := by
  refine ⟨fun _ => ⟨awaits they_run.1 _ _, rfl, rfl, awaits they_run.2.1 _ _, awaits they_run.2.1 _ _⟩, ?_⟩
  unfold LaneInRange
  decide

theorem witness_StationCommands :
    (∀ copy, (asks State.reset 0x05 copy).Awaits 0x05 ∧ (asks State.reset 0x05 copy).control.op = .setup
      ∧ (asks State.reset 0x05 copy).host.copy = copy ∧ (asks running 0x05 copy).Awaits 0x05
      ∧ (asks running 0x06 copy).Awaits 0x06)
    ∧ StationInRange #v[15, 1, 0x0F00, 0xF095, 0xFFFF, 0, 1, 1] ∧ StationInRange #v[0, 0, 1, 0, 0, 1, 0, 1]
    ∧ ¬ StationInRange #v[16, 1, 0, 0, 0, 1, 0, 1] ∧ ¬ StationInRange #v[0, 1, 0, 0, 0, 1, 1, 1]
    ∧ ¬ StationInRange #v[0, 1, 0, 0x0010, 0, 1, 0, 1] := by
  refine ⟨fun _ => ⟨awaits they_run.1 _ _, rfl, rfl, awaits they_run.2.1 _ _, awaits they_run.2.1 _ _⟩,
    ?_, ?_, ?_, ?_, ?_⟩ <;> (unfold StationInRange; decide)

theorem witness_OutputCommands :
    (∀ copy, (asks State.reset 0x07 copy).Awaits 0x07 ∧ (asks State.reset 0x07 copy).control.op = .setup
      ∧ (asks State.reset 0x07 copy).host.copy = copy ∧ (asks running 0x07 copy).Awaits 0x07
      ∧ (asks State.reset 0x08 copy).Awaits 0x08 ∧ (asks running 0x08 copy).Awaits 0x08)
    -- the line, action and state words at the ends of their ranges
    ∧ (15 : OutputId).val = (15#16).toNat ∧ 15 < (16#16).toNat ∧ (2#16).toNat ≤ 2 ∧ 2 < (3#16).toNat :=
  ⟨fun _ => ⟨awaits they_run.1 _ _, rfl, rfl, awaits they_run.2.1 _ _, awaits they_run.1 _ _, awaits they_run.2.1 _ _⟩,
    by decide⟩

theorem witness_PresetSetsBothPositions :
    (asks State.reset 0x09 #v[0xFFFF, 0xFFFF, 0, 0, 0, 0, 0, 0]).Awaits 0x09 ∧ State.reset.control.op = .setup
    ∧ (asks running 0x09 (.replicate 8 0)).Awaits 0x09 ∧ running.control.op ≠ .setup :=
  ⟨awaits they_run.1 _ _, by decide, awaits they_run.2.1 _ _, by decide⟩

/-- After reset no lane is enabled: check 1 is the first failure. -/
theorem witness_StartCommand_fails :
    (asks State.reset 0x10 (.replicate 8 0)).Awaits 0x10 ∧ (asks State.reset 0x10 (.replicate 8 0)).control.op = .setup
    ∧ (asks State.reset 0x10 (.replicate 8 0)).control.hldAsserted = false
    ∧ FirstFailure (asks State.reset 0x10 (.replicate 8 0)).startFails 1 0 := by
  refine ⟨awaits they_run.1 _ _, by decide, by decide, .inl ⟨rfl, rfl, by decide +kernel⟩, ?_⟩
  rintro c u hcu (⟨rfl, rfl, -⟩ | ⟨n, -, he, -⟩ | ⟨rfl, -⟩ | ⟨rfl, -⟩)
  · omega
  · exact absurd he (by revert n; decide +kernel)
  · omega
  · omega

theorem witness_StartCommand :
    ((asks running 0x10 (.replicate 8 0)).Awaits 0x10 ∧ running.control.op ≠ .setup)
    ∧ (asks configured 0x10 (.replicate 8 0)).Awaits 0x10 ∧ (asks configured 0x10 (.replicate 8 0)).control.op = .setup
    ∧ (asks configured 0x10 (.replicate 8 0)).control.hldAsserted = false
    ∧ ∀ check unit, ¬ (asks configured 0x10 (.replicate 8 0)).startFails check unit := by
  refine ⟨⟨awaits they_run.2.1 _ _, by decide⟩, awaits they_run.2.2.2.2.1 _ _, by decide, by decide, ?_⟩
  change ∀ check unit, ¬ configured.startFails check unit
  unfold State.startFails State.stationFails LaneConfig.Disordered
  have lane : ¬ ∀ l : LaneId, configured.lanes[l].config.enabled = false := by decide +kernel
  have station : ∀ n : StationId, configured.stations[n].config.enabled = true →
      let c := configured.stations[n].config
      let x := configured.lanes[c.lane].config
      x.enabled = true ∧ (x.filter.toNat < c.offset.toNat ∧ c.offset.toNat < x.exit.toNat)
        ∧ x.decision.toNat ≤ c.offset.toNat
        ∧ (x.filter.toNat < x.decision.toNat ∧ x.decision.toNat < x.exit.toNat) ∧ c.confirm = none := by
    decide +kernel
  rintro check unit (⟨-, -, h⟩ | ⟨n, -, he, h⟩ | ⟨-, l, -, hd, n, he, rfl, -⟩ | ⟨-, n, m, -, -, he, -, hc, -⟩)
  · exact lane h
  · obtain ⟨h2, h3, h4, -⟩ := station n he
    rcases h with ⟨-, h⟩ | ⟨-, h⟩ | ⟨-, -, h⟩
    · rw [h2] at h; cases h
    · exact h h3
    · omega
  · exact hd (station n he).2.2.2.1
  · exact hc (station n he).2.2.2.2

theorem witness_StopReturnsToSetup :
    (asks twoItems 0x11 (.replicate 8 0)).Awaits 0x11 ∧ twoItems.control.op ≠ .setup
    ∧ (asks halted 0x11 (.replicate 8 0)).Awaits 0x11 ∧ halted.control.op ≠ .setup
    ∧ (asks State.reset 0x11 (.replicate 8 0)).Awaits 0x11 ∧ State.reset.control.op = .setup :=
  ⟨awaits they_run.2.2.2.1 _ _, by decide, awaits they_run.2.2.1 _ _, by decide, awaits they_run.1 _ _, by decide⟩

theorem witness_HaltCommandHalts :
    (asks running 0x12 (.replicate 8 0)).Awaits 0x12 ∧ running.control.op = .tracking
    ∧ (asks halted 0x12 (.replicate 8 0)).Awaits 0x12 ∧ halted.control.op ≠ .tracking :=
  ⟨awaits they_run.2.1 _ _, by decide, awaits they_run.2.2.1 _ _, by decide⟩

theorem witness_ReinitClearsTheRun : (asks twoItems 0x2F (.replicate 8 0)).Awaits 0x2F := awaits they_run.2.2.2.1 _ _

theorem witness_ResumeEntersTracking :
    (∀ amount, (asks (reversed coasted amount) 0x13 (.replicate 8 0)).Awaits 0x13)
    ∧ (asks coasted 0x13 (.replicate 8 0)).Awaits 0x13
    ∧ (coasted.control.op = .halted ∧ coasted.control.requests = [] ∧ coasted.control.hldAsserted = false
      ∧ coasted.reverse = 0 ∧ ∀ l, coasted.LaneSettled l)
    ∧ ((reversed coasted 16).reverse ≠ 0
        ∧ (reversed coasted 16).reverse.toNat ≤ (reversed coasted 16).position.tolerance.toNat)
    ∧ (reversed coasted 17).position.tolerance.toNat < (reversed coasted 17).reverse.toNat
    ∧ ({ halted with control := { halted.control with hldAsserted := true } } : State).control.hldAsserted = true := by
  refine ⟨fun amount => awaits (s := reversed coasted amount) ⟨rfl, rfl⟩ _ _, awaits (quiet_of (by decide +kernel)) _ _,
    ⟨by decide +kernel, by decide +kernel, by decide +kernel, by decide +kernel, ?_⟩,
    by decide +kernel, by decide +kernel, by decide +kernel⟩
  unfold State.LaneSettled
  decide +kernel

theorem witness_ResumeCatchesUp :
    (asks coasted 0x13 (.replicate 8 0)).Awaits 0x13 ∧ coasted.control.op = .halted ∧ coasted.control.hldAsserted = false
    ∧ (∃ e ∈ coasted.list.entries, e.reached = true)
    ∧ (entry (.on 0) 1450 2).kind = .on 0 ∧ (entry .deadline 1350 2).kind = .deadline
    ∧ (entry .retire 1800 1).kind = .retire ∧ (entry (.off 0 false) 1340 1).kind = .off 0 false
    ∧ (∃ after, coasted.list.entries = [] ++ { entry (.off 0 false) 1340 1 with reached := true } :: after) :=
  ⟨awaits (quiet_of (by decide +kernel)) _ _, by decide +kernel, by decide +kernel, by decide +kernel, rfl, rfl, rfl, rfl,
    _, rfl⟩

/-- R82, R44: a reached DEADLINE entry closes its item's verdict in the catch-up. -/
theorem test_catch_up_deadline :
    let t := (with_ (line .halted 1400) [item2] [{ entry .deadline 1350 2 with reached := true }]).caughtUp
    t.queue.items.map Item.final = [true] ∧ t.list.entries = []
      ∧ t.events.records.map EventRecord.kind = [.verdictDefaulted] := by decide +kernel

/-- A live item named by its tag and lane. -/
theorem witness_names : twoItems.Names item2 2 0 ∧ twoItems.NamesNone 3 0 ∧ twoItems.NamesNone 2 1 := by
  refine ⟨⟨by decide +kernel, by decide +kernel⟩, ?_, ?_⟩
  · rintro i ⟨h, -⟩
    exact absurd (h ▸ rfl : (twoItems.queue.items.find? (fun x => x.tag == 3)).isSome = true) (by decide +kernel)
  · rintro i ⟨h, hl⟩
    rw [show twoItems.queue.items.find? (fun x => x.tag == 2) = some item2 by decide +kernel] at h
    cases h
    exact absurd hl (by decide)

/-- A command about item 2 of the two-item sequence, or about a tag and a lane of no live item. -/
theorem witness_item_commands (code : BitVec 8) (copy : Vector Word 8) :
    (asks twoItems code copy).Awaits code ∧ (asks twoItems code copy).control.op ≠ .setup
    ∧ (asks twoItems code copy).host.copy = copy ∧ (asks twoItems code copy).Names item2 2 0
    ∧ (asks twoItems code copy).NamesNone 3 0 ∧ (asks twoItems code copy).NamesNone 2 1 :=
  ⟨awaits they_run.2.2.2.1 _ _, show OpState.tracking ≠ .setup by decide, rfl, witness_names.1, witness_names.2.1, witness_names.2.2⟩

theorem witness_DecideSetsTheVerdict :
    (let s := asks twoItems 0x20 #v[2, 0, 1, 0xEF, 15, 0, 0, 0]
     s.Awaits 0x20 ∧ s.control.op ≠ .setup ∧ DecideInRange s.host.copy ∧ s.Names item2 s.host.copy[0] s.host.copy[1]
      ∧ item2.final = false ∧ item2.source ≠ .forced ∧ (s.queue.items.map Item.tag).Nodup)
    ∧ DecideInRange #v[3, 0, 2, 0, 0xFF, 0, 0, 0] ∧ DecideInRange #v[2, 1, 2, 0, 0xFF, 0, 0, 0]
    ∧ ¬ DecideInRange #v[1, 0, 1, 0xF0, 15, 0, 0, 0] ∧ ¬ DecideInRange #v[1, 0, 1, 0, 16, 0, 0, 0] := by
  refine ⟨⟨awaits they_run.2.2.2.1 _ _, by decide, ?_, witness_names.1, by decide, by decide, by decide +kernel⟩,
    ?_, ?_, ?_, ?_⟩ <;> (unfold DecideInRange; decide)

/-- A final item, and one locked by a length finding. -/
theorem witness_DecideSetsTheVerdict_closed :
    twoItems.Names { item1 with final := true } 1 0
    ∧ (with_ running [{ item2 with verdict := .reject, source := .forced, reason := 0xF0 }] []).Names
        { item2 with verdict := .reject, source := .forced, reason := 0xF0 } 2 0 :=
  ⟨⟨by decide +kernel, by decide⟩, ⟨by decide +kernel, by decide⟩⟩

theorem witness_CancelRemovesTheItem :
    (let s := asks twoItems 0x21 #v[2, 0, 0, 0, 0, 0, 0, 0]
     s.Awaits 0x21 ∧ s.control.op ≠ .setup ∧ s.host.copy[0] ≠ 0 ∧ s.Names item2 s.host.copy[0] s.host.copy[1])
    ∧ (let s := asks twoItems 0x21 #v[2, 1, 0, 0, 0, 0, 0, 0]
       s.Awaits 0x21 ∧ s.host.copy[0] ≠ 0 ∧ s.host.copy[1].toNat ≤ 3 ∧ s.NamesNone s.host.copy[0] s.host.copy[1]) :=
  ⟨⟨awaits they_run.2.2.2.1 _ _, by decide, by decide, witness_names.1⟩,
    ⟨awaits they_run.2.2.2.1 _ _, by decide, by decide, witness_names.2.2⟩⟩

theorem witness_QueryReadsTheItem :
    (∀ part ∈ [0#16, 1#16],
      let s := asks twoItems 0x22 #v[2, 0, part, 0, 0, 0, 0, 0]
      s.Awaits 0x22 ∧ s.control.op ≠ .setup ∧ s.host.copy[0] ≠ 0 ∧ s.Names item2 s.host.copy[0] s.host.copy[1]
        ∧ s.host.copy[2] = part)
    ∧ (let s := asks twoItems 0x22 #v[3, 0, 1, 0, 0, 0, 0, 0]
       s.Awaits 0x22 ∧ s.host.copy[0] ≠ 0 ∧ s.host.copy[1].toNat ≤ 3 ∧ s.host.copy[2].toNat ≤ 1
        ∧ s.NamesNone s.host.copy[0] s.host.copy[1]) :=
  ⟨fun _ _ => ⟨awaits they_run.2.2.2.1 _ _, show OpState.tracking ≠ .setup by decide, show (2#16) ≠ 0 by decide, witness_names.1, rfl⟩,
    ⟨awaits they_run.2.2.2.1 _ _, by decide, by decide, by decide, witness_names.2.1⟩⟩

theorem witness_StationEnableCommand :
    (∀ copy, (asks running 0x23 copy).Awaits 0x23 ∧ (asks laneOff 0x23 copy).Awaits 0x23
      ∧ (asks running 0x23 copy).control.op ≠ .setup ∧ (asks State.reset 0x23 copy).Awaits 0x23
      ∧ (asks State.reset 0x23 copy).control.op = .setup)
    ∧ (running.stations[(0 : StationId)].runtime = .enabled ∧ running.stations[(15 : StationId)].runtime = .disabled)
    ∧ (station0 running (fun st => { st with runtime := .failed })).stations[(0 : StationId)].runtime = .failed
    ∧ (∀ check unit, ¬ running.enableFails 0 check unit) ∧ FirstFailure (laneOff.enableFails 0) 2 0 := by
  have ok : let c := running.stations[(0 : StationId)].config
      let x := running.lanes[c.lane].config
      x.enabled = true ∧ (x.filter.toNat < c.offset.toNat ∧ c.offset.toNat < x.exit.toNat)
        ∧ x.decision.toNat ≤ c.offset.toNat
        ∧ (x.filter.toNat < x.decision.toNat ∧ x.decision.toNat < x.exit.toNat) ∧ c.confirm = none := by
    decide +kernel
  refine ⟨fun _ => ⟨awaits they_run.2.1 _ _, awaits they_run.2.2.2.2.2 _ _, (show OpState.tracking ≠ .setup by decide),
      awaits they_run.1 _ _, rfl⟩,
    by decide +kernel, by decide +kernel, ?_, .inl ⟨rfl, .inl ⟨rfl, by decide +kernel⟩⟩, ?_⟩
  · unfold State.enableFails State.stationFails LaneConfig.Disordered
    rintro check unit (⟨-, h⟩ | ⟨-, -, h, -⟩ | ⟨-, m, -, -, -, h, -⟩)
    · obtain ⟨h2, h3, h4, -⟩ := ok
      rcases h with ⟨-, h⟩ | ⟨-, h⟩ | ⟨-, -, h⟩
      · rw [h2] at h; cases h
      · exact h h3
      · omega
    · exact h ok.2.2.2.1
    · exact h ok.2.2.2.2
  · rintro c u hcu (⟨rfl, ⟨rfl, -⟩ | ⟨rfl, -⟩ | ⟨rfl, -⟩⟩ | ⟨rfl, -⟩ | ⟨rfl, -⟩)
    · simp only [Fin.coe_ofNat_eq_mod] at hcu; omega
    all_goals omega

theorem witness_CountCommands :
    (asks running 0x24 (.replicate 8 0)).Awaits 0x24 ∧ (asks running 0x24 (.replicate 8 0)).WithinCapacity
    ∧ (asks running 0x24 (.replicate 8 0)).EventsSound
    ∧ ((asks State.reset 0x24 (.replicate 8 0)).Awaits 0x24 ∧ (asks State.reset 0x24 (.replicate 8 0)).WithinCapacity
        ∧ (asks State.reset 0x24 (.replicate 8 0)).EventsSound ∧ (asks State.reset 0x24 (.replicate 8 0)).SetupIsEmpty
        ∧ State.reset.control.op = .setup)
    ∧ ∀ copy, (asks running 0x25 copy).Awaits 0x25 :=
  ⟨awaits they_run.2.1 _ _, ⟨by decide +kernel, by decide +kernel, by decide +kernel⟩, events_of (by decide +kernel),
    ⟨awaits they_run.1 _ _, ⟨by decide +kernel, by decide +kernel, by decide +kernel⟩, events_of (by decide +kernel),
      ⟨by decide +kernel, by decide +kernel, by decide +kernel, by decide +kernel, by decide +kernel, by decide +kernel⟩,
      rfl⟩,
    fun _ => awaits they_run.2.1 _ _⟩

/-- The two items one count before station 0, and the step that brings it. -/
def waiting : State := { twoItems with pending := [stepOf twoItems true] }

theorem witness_every_step_answers : ∃ t, step waiting = .next t := ⟨_, rfl⟩

/-- The invariants hold of a state in TRACKING with items, entries and stations in service. -/
theorem witness_CapacitiesAreKept : waiting.WithinCapacity ∧ waiting.EventsSound :=
  ⟨⟨by decide +kernel, by decide +kernel, by decide +kernel⟩, events_of (by decide +kernel)⟩

theorem not_setup {P : Prop} {s : State} (h : s.control.op ≠ .setup) : s.control.op = .setup → P := fun h' => absurd h' h

theorem waiting_setupIsEmpty : waiting.SetupIsEmpty :=
  ⟨not_setup (by decide), not_setup (by decide), not_setup (by decide), not_setup (by decide), not_setup (by decide),
    not_setup (by decide)⟩

theorem waiting_outOfService : ∀ n : StationId, waiting.stations[n].runtime ≠ .enabled →
    waiting.stations[n].watches = [] ∧ ∀ e ∈ waiting.list.entries, e.kind ≠ .on n := by decide +kernel

theorem witness_StationsAreServedInState : waiting.SetupIsEmpty ∧ waiting.StationsServed :=
  ⟨waiting_setupIsEmpty, ⟨waiting_setupIsEmpty, waiting_outOfService, by decide +kernel⟩⟩

theorem witness_ControlAndOutputsAreKept :
    waiting.HaltRecorded ∧ waiting.HoldRespected ∧ waiting.OutputsSound ∧ waiting.DetectorsSound :=
  ⟨⟨by decide +kernel, by decide +kernel, fun c h => (by cases h), fun _ => rfl, fun _ => rfl, fun _ => rfl⟩,
    ⟨by decide +kernel, by decide +kernel⟩, ⟨by decide +kernel, by decide +kernel⟩,
    (by decide +kernel : ∀ l : LaneId, waiting.lanes[l].detector ≠ .off →
      waiting.lanes[l].config.enabled = true ∧ waiting.control.op ≠ .setup)⟩

theorem waiting_tags : waiting.TagsSound := tags_of (by decide +kernel)

theorem witness_EveryItemIsRetiredOnce : waiting.TagsSound ∧ waiting.ListMatchesQueue :=
  ⟨waiting_tags, ⟨waiting_tags, by decide +kernel⟩⟩

theorem waiting_config : waiting.ConfigSound :=
  ⟨(witness_config .tracking 1299).1, (witness_config .tracking 1299).2, (witness_config .tracking 1299).3⟩

theorem witness_ConfigurationAndReferencesAreKept : waiting.ConfigSound ∧ waiting.ReferencesCurrent :=
  ⟨waiting_config, by decide +kernel, by decide +kernel, by decide +kernel⟩

theorem witness_OperatingStateChanges :
    (asks configured 0x10 (.replicate 8 0)).control.op = .setup
    ∧ (then_ (asks configured 0x10 (.replicate 8 0)) .start).control.op ≠ .setup
    ∧ (then_ (asks (reversed halted 1) 0x13 (.replicate 8 0)) .resume).control.op = .tracking
    ∧ (then_ (asks running 0x11 (.replicate 8 0)) .stop).control.op = .setup
    ∧ running.control.requests = [] ∧ running.control.hldAsserted = false
    ∧ (then_ running .hldAssert).control.op = .halted
    ∧ (then_ (reversed running 16) (stepOf (reversed running 16) false)).control.op = .halted
    ∧ (raised running [.encoder]).pending = [] ∧ (raised running [.encoder]).control.op = .tracking := by decide +kernel

theorem witness_ConfigurationIsFixedOutsideSetup :
    isResetCommand .setLane = false ∧ (asks running 0x03 (.replicate 8 0)).control.op ≠ .setup
    ∧ ∃ t, exec .setLane (asks running 0x03 (.replicate 8 0)) = .next t := ⟨rfl, by decide, _, rfl⟩

theorem witness_TrackingPositionNeverFallsBack :
    isResetCommand (stepOf running true) = false ∧ (then_ running (stepOf running true)).control.op = .tracking
    ∧ (then_ running (stepOf running true)).position.tracking = running.position.tracking + 1
    ∧ (then_ running (stepOf running false)).position.tracking = running.position.tracking := by decide +kernel

theorem waiting_ahead : waiting.ListAheadOfTheBelt where
  config := waiting_config
  running := by decide +kernel
  setup := not_setup (by decide)
  detectors := not_setup (by decide)
  tracking := by decide +kernel
  halted := by decide +kernel
  filters := fun _ l capture h => absurd h (by
    have : ∀ l : LaneId, waiting.lanes[l].detector = .clear ∨ waiting.lanes[l].detector = .off := by decide +kernel
    rcases this l with h | h <;> rw [h] <;> exact fun k => by cases k)
  captures := fun _ _ l capture h => absurd h (by
    have : ∀ l : LaneId, waiting.lanes[l].detector = .clear ∨ waiting.lanes[l].detector = .off := by decide +kernel
    rcases this l with h | h <;> rw [h] <;> exact fun k => by cases k)
  stations := by decide +kernel

theorem waiting_inOrder : waiting.ListInOrder where
  belt := waiting_ahead
  order := by unfold Entry.NotAfter; decide +kernel
  near := by decide +kernel
  tracking := by decide +kernel
  halted := by decide +kernel

theorem witness_NothingStandsBehindTheBelt :
    waiting.ListAheadOfTheBelt ∧ waiting.ListInOrder ∧ waiting.EntriesNameLiveItems :=
  ⟨waiting_ahead, waiting_inOrder,
    { queue := witness_EveryItemIsRetiredOnce.2
      list := waiting_inOrder
      live := by decide +kernel
      reached := by decide +kernel
      last := by decide +kernel
      stations := by decide +kernel }⟩

end Sys2Proof.Tests
end

section
/-! PROOFS. The commands taken in SETUP only (R177), and PRESET_POSITION (R6). -/

namespace Sys2Proof.Machine

/-! ### Commands taken in SETUP only (R177) -/

theorem awaits_requests {s : State} {code : BitVec 8} (h : s.Awaits code) : s.control.requests = [] := by
  obtain ⟨⟨-, hq⟩, -, -⟩ := h
  exact hq

theorem inSetup_setup {s : State} (judge : State → Answer) (h : s.control.op = .setup) :
    inSetup judge s = judge s := by
  simp [inSetup, h]

theorem inSetup_of_ne_setup {s : State} (judge : State → Answer) (h : s.control.op ≠ .setup) :
    inSetup judge s = .refuse .badState s := by
  unfold inSetup
  split
  · contradiction
  · rfl
  · rfl

/-- In SETUP an owner that raises no request completes the command with its own judgement. -/
theorem complete_inSetup_setup {s : State} {code : BitVec 8} {judge : State → Answer} (h : s.Awaits code)
    (ho : s.control.op = .setup) (hr : (judge s).state.control.requests = []) :
    complete code (inSetup judge) s = .next ((judge s).state.completed (judge s).code (judge s).results) := by
  have hj : inSetup judge s = judge s := inSetup_setup judge ho
  rw [complete_quiet _ h (by rw [hj]; exact hr), hj, finish_eq]

theorem complete_inSetup_badState {s : State} {code : BitVec 8} (judge : State → Answer) (h : s.Awaits code)
    (ho : s.control.op ≠ .setup) :
    complete code (inSetup judge) s = .next (s.completed .badState noWords) := by
  have hj : inSetup judge s = .refuse .badState s := inSetup_of_ne_setup judge ho
  rw [complete_quiet _ h (by rw [hj]; exact awaits_requests h), hj, finish_eq]
  rfl

/-! ### PRESET_POSITION (R6) -/

/-- In SETUP a move sets both positions and the firing point, and nothing else (R7, R85). -/
theorem moveInSetup_eq (s : State) (value : Pos) :
    s.moveInSetup value =
      { s with position := { s.position with counter := value, tracking := value }
               list := { s.list with firingPoint := value } } := rfl

theorem exec_presetPosition (s : State) :
    exec .presetPosition s =
      complete 0x09 (inSetup fun t =>
        .done noWords (t.moveInSetup (joinWords t.host.copy[0] t.host.copy[1]))) s := rfl

/-- Settles O39: the judgement in SETUP moves both positions to the joined words and raises no halt request; outside
SETUP every command of this kind is refused. -/
theorem presetSetsBothPositions : Obligations.PresetSetsBothPositions := by
  intro s h
  refine ⟨fun inSetupState => ?_, fun outsideSetup => ?_⟩
  · rw [exec_presetPosition, complete_inSetup_setup h inSetupState (by simp [Answer.done, awaits_requests h])]
    simp only [Answer.done, moveInSetup_eq, joinWords]
  · rw [exec_presetPosition, complete_inSetup_badState _ h outsideSetup]

end Sys2Proof.Machine
end

section
/-! PROOFS. The packed words of the GET commands, SET_LANE and GET_LANE (R16, R17), READ_COUNTS (R180) and
READ_LANE_COUNTERS (R33). -/

namespace Sys2Proof

/-! ### Packed words -/

theorem joinWords_lo_hi (p : Pos) : joinWords (lo p) (hi p) = p :=
  BitVec.extractLsb'_append_extractLsb'

theorem toNat_ofNat_word {n : Nat} (h : n < 65536) : (BitVec.ofNat 16 n).toNat = n :=
  (BitVec.toNat_ofNat n 16).trans (Nat.mod_eq_of_lt h)

theorem getLsbD_flagBit (n : Nat) (b : Bool) (i : Nat) :
    (flagBit n b).getLsbD i = (b && decide (i < 16) && decide (n = i)) := by
  cases b with
  | false => simp [flagBit]
  | true =>
    simp only [flagBit, if_true, BitVec.getLsbD_twoPow, Bool.true_and]
    by_cases h : n = i <;> simp [h]

theorem getLsbD_fieldAt (n v i : Nat) :
    (fieldAt n v).getLsbD i = (decide (i < 16) && decide (n ≤ i) && v.testBit (i - n)) := by
  simp [fieldAt, BitVec.getLsbD_ofNat, Nat.testBit_mul_two_pow, Bool.and_assoc]

/-- A field read back from its own place. -/
theorem extractLsb'_fieldAt_same {n v len : Nat} (hn : n + len ≤ 16) :
    (fieldAt n v).extractLsb' n len = BitVec.ofNat len v := by
  refine BitVec.eq_of_getLsbD_eq fun i hi => ?_
  have hin : n + i < 16 := by omega
  rw [BitVec.getLsbD_extractLsb', getLsbD_fieldAt, BitVec.getLsbD_ofNat]
  simp [hi, hin]

/-- A place above a field reads 0 of it. -/
theorem extractLsb'_fieldAt_above {n v w start : Nat} (len : Nat) (hv : v < 2 ^ w) (hs : n + w ≤ start) :
    (fieldAt n v).extractLsb' start len = 0 := by
  refine BitVec.eq_of_getLsbD_eq fun i hi => ?_
  have hbit : v.testBit (start + i - n) = false :=
    Nat.testBit_lt_two_pow (hv.trans_le (Nat.pow_le_pow_right (by decide) (by omega)))
  simp [BitVec.getLsbD_extractLsb', getLsbD_fieldAt, hbit]

/-- A place below a field reads 0 of it. -/
theorem extractLsb'_fieldAt_below {n start len : Nat} (v : Nat) (hs : start + len ≤ n) :
    (fieldAt n v).extractLsb' start len = 0 := by
  refine BitVec.eq_of_getLsbD_eq fun i hi => ?_
  have hout : ¬ n ≤ start + i := by omega
  simp [BitVec.getLsbD_extractLsb', getLsbD_fieldAt, hout]

/-- A place without the flag's bit reads 0 of it. -/
theorem extractLsb'_flagBit_outside {n start len : Nat} (b : Bool) (hs : n < start ∨ start + len ≤ n) :
    (flagBit n b).extractLsb' start len = 0 := by
  refine BitVec.eq_of_getLsbD_eq fun i hi => ?_
  have hout : ¬ n = start + i := by omega
  simp [BitVec.getLsbD_extractLsb', getLsbD_flagBit, hout]

namespace Machine

theorem wholeBelow_eq_some {n : Nat} {w : Word} {i : Fin n} (h : i.val = w.toNat) : wholeBelow n w = some i := by
  have hlt : w.toNat < n := h ▸ i.isLt
  rw [wholeBelow, dif_pos hlt]
  exact congrArg some (Fin.ext h.symm)

theorem wholeBelow_eq_none {n : Nat} {w : Word} (h : n ≤ w.toNat) : wholeBelow n w = none := dif_neg (by omega)

/-- The lane word or the word below 2 that stands beside it is out of range (R17, R33). -/
theorem laneAndPart_outOfRange {lane part : Word} (h : 3 < lane.toNat ∨ 1 < part.toNat) :
    wholeBelow 4 lane = none ∨ ∃ l, wholeBelow 4 lane = some l ∧ wholeBelow 2 part = none := by
  by_cases hl : lane.toNat < 4
  · exact .inr ⟨⟨_, hl⟩, wholeBelow_eq_some rfl, wholeBelow_eq_none (by omega)⟩
  · exact .inl (wholeBelow_eq_none (not_lt.1 hl))

/-! ### The answer of a command in flight -/

/-- An owner that refuses leaves the state as it stands. -/
theorem complete_refuse {s : State} {code : BitVec 8} {judge : State → Answer} {c : ResultCode} (h : s.Awaits code)
    (hj : judge s = .refuse c s) : complete code judge s = .next (s.completed c noWords) := by
  rw [complete_quiet _ h (by rw [hj]; exact awaits_requests h), hj, finish_eq]
  rfl

/-- An owner that answers DONE and leaves operating control alone raises no request. -/
theorem complete_done {s t : State} {code : BitVec 8} {judge : State → Answer} {r : Vector Word 6}
    (h : s.Awaits code) (hj : judge s = .done r t) (ht : t.control = s.control) :
    complete code judge s = .next (t.completed .done r) := by
  have hr : (judge s).state.control.requests = [] := by
    rw [hj]
    exact (congrArg Control.requests ht).trans (awaits_requests h)
  rw [complete_quiet _ h hr, hj, finish_eq]
  rfl

/-! ### SET_LANE (R16) -/

theorem exec_setLane (s : State) : exec .setLane s = complete 0x03 judgeSetLane s := rfl

theorem decisionOf_code {n : Nat} {d : Decision} (h : decisionOf n = some d) : n = d.verdict.code := by
  unfold decisionOf at h
  split at h <;> cases h <;> rfl

theorem decisionOf_some_iff {n : Nat} : (∃ d, decisionOf n = some d) ↔ n = 1 ∨ n = 2 := by
  constructor
  · rintro ⟨d, hd⟩
    rw [decisionOf_code hd]
    cases d with
    | pass => exact .inl rfl
    | reject => exact .inr rfl
  · rintro (rfl | rfl)
    · exact ⟨.pass, rfl⟩
    · exact ⟨.reject, rfl⟩

theorem laneField_toNat (w : BitVec 4) : (w.zeroExtend 16 : Word).toNat = w.toNat :=
  BitVec.toNat_setWidth_of_le (by decide)

theorem setLaneNumber_of_le {p : Vector Word 8} (h : (p[1].extractLsb' 12 4).toNat ≤ 3) :
    ∃ l : LaneId, l.val = (p[1].extractLsb' 12 4).toNat ∧ setLaneNumber p = some l :=
  ⟨⟨_, Nat.lt_succ_of_le h⟩, rfl, wholeBelow_eq_some (laneField_toNat _).symm⟩

theorem setLaneNumber_eq_none {p : Vector Word 8} (h : 3 < (p[1].extractLsb' 12 4).toNat) :
    setLaneNumber p = none :=
  wholeBelow_eq_none (by rw [laneField_toNat]; exact h)

/-- The words of a SET_LANE, but for the lane number, are in range, as `laneConfigOf` judges them: the verdict field,
then what puts a distance out of range (R16). -/
def LaneWordsFit (p : Vector Word 8) : Prop :=
  ((p[1].extractLsb' 2 2).toNat = 1 ∨ (p[1].extractLsb' 2 2).toNat = 2)
    ∧ ¬ ((p[7].extractLsb' 0 8 ++ p[5] : Distance) = 0 ∨ (p[7].extractLsb' 8 8 ++ p[6] : Distance) = 0
        ∨ (p[3] ≠ 0 ∧ (p[0].extractLsb' 0 8 ++ p[4] : Distance) ≠ 0
            ∧ (p[0].extractLsb' 0 8 ++ p[4] : Distance).toNat ≤ p[3].toNat)
        ∨ (p[7].extractLsb' 8 8 ++ p[6] : Distance).toNat ≤ (p[0].extractLsb' 8 8).toNat)

theorem laneInRange_iff (p : Vector Word 8) :
    LaneInRange p ↔ (p[1].extractLsb' 12 4).toNat ≤ 3 ∧ LaneWordsFit p := by
  simp only [LaneInRange, LaneWordsFit, not_or, not_and, not_le, ne_eq]

theorem laneConfigOf_of_fit {p : Vector Word 8} (h : LaneWordsFit p) :
    ∃ c : LaneConfig, c.Says p ∧ laneConfigOf p = some c := by
  obtain ⟨hverdict, hranges⟩ := h
  obtain ⟨verdict, hd⟩ := decisionOf_some_iff.2 hverdict
  have hcode := decisionOf_code hd
  simp only [laneConfigOf, hd, if_neg hranges]
  refine ⟨_, ?_, rfl⟩
  constructor
  case defaultVerdict => cases verdict <;> simp [hcode, Decision.verdict, Verdict.code]
  case sizePolicy => simp [bitAt]
  case overflow => simp [bitAt]
  all_goals rfl

theorem laneConfigOf_eq_none {p : Vector Word 8} (h : ¬ LaneWordsFit p) : laneConfigOf p = none := by
  cases hd : decisionOf (p[1].extractLsb' 2 2).toNat with
  | none => simp only [laneConfigOf, hd]
  | some verdict =>
    have hverdict := decisionOf_some_iff.1 ⟨verdict, hd⟩
    simp only [laneConfigOf, hd]
    exact if_pos (by_contra fun hranges => h ⟨hverdict, hranges⟩)

theorem exec_setLane_of_inRange {s : State} (h : s.Awaits 0x03) (ho : s.control.op = .setup)
    (hp : LaneInRange s.host.copy) :
    ∃ (l : LaneId) (c : LaneConfig), l.val = (s.host.copy[1].extractLsb' 12 4).toNat ∧ c.Says s.host.copy
      ∧ exec .setLane s = .next ((s.updLane l fun x => { x with config := c }).completed .done noWords) := by
  obtain ⟨hlane, hfit⟩ := (laneInRange_iff _).1 hp
  obtain ⟨l, hl, hnumber⟩ := setLaneNumber_of_le hlane
  obtain ⟨c, hc, hconfig⟩ := laneConfigOf_of_fit hfit
  have hj : judgeSetLane s = .done noWords (s.updLane l fun x => { x with config := c }) := by
    rw [judgeSetLane, inSetup_setup _ ho, hnumber, hconfig]
  exact ⟨l, c, hl, hc, by rw [exec_setLane, complete_done h hj (updLane_control ..)]⟩

theorem judgeSetLane_outOfRange {s : State} (ho : s.control.op = .setup) (hp : ¬ LaneInRange s.host.copy) :
    judgeSetLane s = .refuse .badParam s := by
  rw [judgeSetLane, inSetup_setup _ ho]
  by_cases hlane : (s.host.copy[1].extractLsb' 12 4).toNat ≤ 3
  · obtain ⟨l, -, hnumber⟩ := setLaneNumber_of_le hlane
    have hfit : ¬ LaneWordsFit s.host.copy := fun hfit => hp ((laneInRange_iff _).2 ⟨hlane, hfit⟩)
    rw [hnumber, laneConfigOf_eq_none hfit]
  · rw [setLaneNumber_eq_none (not_le.1 hlane)]

/-! ### The flags word of GET_LANE (section 10.7) -/

theorem decision_code_lt (d : Decision) : d.verdict.code < 2 ^ 2 := by cases d <;> decide

theorem laneFlags_bits (l : LaneId) (c : LaneConfig) :
    (laneFlags l c).getLsbD 0 = c.enabled ∧ (laneFlags l c).getLsbD 1 = c.activeLow
    ∧ ((laneFlags l c).getLsbD 4 = true ↔ c.sizePolicy = .reject)
    ∧ ((laneFlags l c).getLsbD 5 = true ↔ c.overflow = .halt) := by
  have hcode := decision_code_lt c.defaultVerdict
  have hbit2 : c.defaultVerdict.verdict.code.testBit 2 = false := Nat.testBit_lt_two_pow hcode
  have hbit3 : c.defaultVerdict.verdict.code.testBit 3 = false := Nat.testBit_lt_two_pow (hcode.trans (by decide))
  refine ⟨?_, ?_, ?_, ?_⟩ <;>
    simp [-BitVec.getLsbD_eq_getElem, laneFlags, getLsbD_flagBit, getLsbD_fieldAt, hbit2, hbit3]

/-- The 2-bit verdict field, the reserved bits, the class and the lane number, each out of the flags word. -/
theorem laneFlags_fields (l : LaneId) (c : LaneConfig) :
    (laneFlags l c).extractLsb' 2 2 = BitVec.ofNat 2 c.defaultVerdict.verdict.code
    ∧ (laneFlags l c).extractLsb' 6 2 = 0
    ∧ (laneFlags l c).extractLsb' 8 4 = BitVec.ofNat 4 c.defaultClass.val
    ∧ (laneFlags l c).extractLsb' 12 4 = BitVec.ofNat 4 l.val := by
  have hcode := decision_code_lt c.defaultVerdict
  have hclass : c.defaultClass.val < 2 ^ 4 := c.defaultClass.isLt
  refine ⟨?_, ?_, ?_, ?_⟩ <;>
    simp [laneFlags, BitVec.extractLsb'_or, extractLsb'_flagBit_outside, extractLsb'_fieldAt_same,
      extractLsb'_fieldAt_below, extractLsb'_fieldAt_above _ hcode, extractLsb'_fieldAt_above _ hclass]

/-! ### GET_LANE (R17) -/

theorem exec_getLane (s : State) : exec .getLane s = complete 0x04 judgeGetLane s := rfl

theorem exec_getLane_outOfRange {s : State} (h : s.Awaits 0x04)
    (hp : 3 < s.host.copy[0].toNat ∨ 1 < s.host.copy[1].toNat) :
    exec .getLane s = .next (s.completed .badParam noWords) := by
  have hj : judgeGetLane s = .refuse .badParam s := by
    rcases laneAndPart_outOfRange hp with hlane | ⟨l, hlane, hpart⟩
    · simp only [judgeGetLane, hlane]
    · simp only [judgeGetLane, hlane, hpart]
  rw [exec_getLane, complete_refuse h hj]

theorem exec_getLane_of_inRange {s : State} (h : s.Awaits 0x04) {l : LaneId} {part : Fin 2}
    (hl : l.val = s.host.copy[0].toNat) (hpart : part.val = s.host.copy[1].toNat) :
    exec .getLane s = .next (s.completed .done (laneWords l s.lanes[l] part)) := by
  have hj : judgeGetLane s = .done (laneWords l s.lanes[l] part) s := by
    simp only [judgeGetLane, wholeBelow_eq_some hl, wholeBelow_eq_some hpart]
  rw [exec_getLane, complete_done h hj rfl]

theorem link_eq_none {d : Detector} (h : ∀ tag candidate, d ≠ .occupied (some tag) candidate) : d.link = none := by
  cases d with
  | occupied link candidate =>
    cases link with
    | none => rfl
    | some tag => exact absurd rfl (h tag candidate)
  | off => rfl
  | waitClear => rfl
  | clear => rfl
  | filtering capture => rfl

/-- Settles O36: SET_LANE by the judgement of its words, GET_LANE by the fields of the flags word and, for part 1, the
code and the link of the detector. -/
theorem laneCommands : Obligations.LaneCommands := by
  refine ⟨fun s h => ⟨fun outsideSetup => ?_, fun inSetupState outOfRange => ?_, fun inSetupState inRange => ?_⟩,
    fun s h => ⟨fun outOfRange => ?_, fun l hl hpart => ?_, fun l hl hpart => ?_⟩⟩
  · exact complete_inSetup_badState _ h outsideSetup
  · exact complete_refuse h (judgeSetLane_outOfRange inSetupState outOfRange)
  · exact exec_setLane_of_inRange h inSetupState inRange
  · exact exec_getLane_outOfRange h outOfRange
  · obtain ⟨hbit0, hbit1, hbit4, hbit5⟩ := laneFlags_bits l s.lanes[l].config
    obtain ⟨hverdict, hreserved, hclass, hlane⟩ := laneFlags_fields l s.lanes[l].config
    refine ⟨_, exec_getLane_of_inRange (part := 0) h hl (by rw [hpart]; rfl), hbit0, hbit1, ?_, hbit4, hbit5,
      hreserved, ?_, ?_, rfl, rfl, rfl, joinWords_lo_hi _⟩
    · exact hverdict.trans (by cases s.lanes[l].config.defaultVerdict <;> rfl)
    · exact (congrArg BitVec.toNat hclass).trans (Nat.mod_eq_of_lt (Fin.isLt _))
    · exact (congrArg BitVec.toNat hlane).trans (Nat.mod_eq_of_lt (by omega))
  · refine ⟨_, exec_getLane_of_inRange (part := 1) h hl (by rw [hpart]; rfl), joinWords_lo_hi _, joinWords_lo_hi _,
      congrArg Detector.code, congrArg Detector.code, congrArg Detector.code, fun _ => congrArg Detector.code,
      fun _ _ => congrArg Detector.code, fun tag _ hd => ?_, fun hd => ?_⟩
    · exact congrArg (fun d => d.link.getD 0) hd
    · exact congrArg (fun link => link.getD 0) (link_eq_none hd)

/-! ### READ_COUNTS (R180) -/

/-- The six numbers of READ_COUNTS. -/
def State.countWords (s : State) : Vector Word 6 :=
  words (BitVec.ofNat 16 s.queue.items.length) (BitVec.ofNat 16 s.list.entries.length)
    (BitVec.ofNat 16 s.reservations) (BitVec.ofNat 16 s.events.records.length) s.position.errors
    (BitVec.ofNat 16 (Config.listSlots - s.slotsUsed))

theorem exec_readCounts {s : State} (h : s.Awaits 0x24) :
    exec .readCounts s = .next (s.completed .done s.countWords) :=
  complete_done h (judge := judgeReadCounts) rfl rfl

theorem reservations_le (s : State) : s.reservations ≤ s.list.entries.length := List.countP_le_length

/-- Within the capacities no number is cut to its word. -/
theorem countWords_toNat {s : State} (hcap : s.WithinCapacity) (hevents : s.EventsSound) :
    s.countWords[0].toNat = s.queue.items.length ∧ s.countWords[1].toNat = s.list.entries.length
    ∧ s.countWords[2].toNat = s.reservations ∧ s.countWords[3].toNat = s.events.records.length
    ∧ s.countWords[5].toNat = 192 - (s.list.entries.length + s.reservations) := by
  have hitems := hcap.items
  have hslots : s.list.entries.length + s.reservations ≤ 192 := hcap.slots
  have hrecords := hevents.room
  exact ⟨toNat_ofNat_word (by omega), toNat_ofNat_word (by omega), toNat_ofNat_word (by omega),
    toNat_ofNat_word (by omega), toNat_ofNat_word (n := 192 - (s.list.entries.length + s.reservations)) (by omega)⟩

theorem countWords_empty {s : State} (hitems : s.queue.items = []) (hentries : s.list.entries = []) :
    s.countWords[0] = 0 ∧ s.countWords[1] = 0 ∧ s.countWords[2] = 0 ∧ s.countWords[5] = 192 := by
  simp [State.countWords, words, State.slotsUsed, State.reservations, Config.listSlots, hitems, hentries]

/-! ### READ_LANE_COUNTERS (R33) -/

theorem exec_readLaneCounters (s : State) :
    exec .readLaneCounters s = complete 0x25 judgeReadLaneCounters s := rfl

theorem exec_readLaneCounters_outOfRange {s : State} (h : s.Awaits 0x25)
    (hp : 3 < s.host.copy[0].toNat ∨ 1 < s.host.copy[1].toNat) :
    exec .readLaneCounters s = .next (s.completed .badParam noWords) := by
  have hj : judgeReadLaneCounters s = .refuse .badParam s := by
    rcases laneAndPart_outOfRange hp with hlane | ⟨l, hlane, hgroup⟩
    · simp only [judgeReadLaneCounters, hlane]
    · simp only [judgeReadLaneCounters, hlane, hgroup]
  rw [exec_readLaneCounters, complete_refuse h hj]

theorem exec_readLaneCounters_of_inRange {s : State} (h : s.Awaits 0x25) {l : LaneId} {group : Fin 2}
    (hl : l.val = s.host.copy[0].toNat) (hg : group.val = s.host.copy[1].toNat) :
    exec .readLaneCounters s = .next
      ((if s.host.copy[2] = 0 then s
        else s.updLane l fun x => { x with counters := x.counters.clearGroup group }).completed .done
        (s.lanes[l].counters.group group)) := by
  rw [exec_readLaneCounters]
  refine complete_done h ?_ ?_
  · simp only [judgeReadLaneCounters, wholeBelow_eq_some hl, wholeBelow_eq_some hg]
  · split
    · rfl
    · exact updLane_control ..

/-- Settles O49: READ_COUNTS by the values of its words within the capacities, READ_LANE_COUNTERS by its two groups. -/
theorem countCommands : Obligations.CountCommands := by
  refine ⟨fun s h hcap hevents => ?_,
    fun s h => ⟨exec_readLaneCounters_outOfRange h, fun l hl => ⟨fun hgroup => ?_, fun hgroup => ?_⟩⟩⟩
  · obtain ⟨hitems, hentries, hon, hrecords, hfree⟩ := countWords_toNat hcap hevents
    have hle := reservations_le s
    have hslots : s.list.entries.length + s.reservations ≤ 192 := hcap.slots
    exact ⟨s.countWords, exec_readCounts h, hitems, hentries, hon, hrecords, rfl, by omega,
      hitems.trans_le hcap.items, by omega, hrecords.trans_le hevents.room,
      fun empty ho => countWords_empty (empty.queue ho) (empty.list ho)⟩
  · exact exec_readLaneCounters_of_inRange (group := 0) h hl (by rw [hgroup]; rfl)
  · exact exec_readLaneCounters_of_inRange (group := 1) h hl (by rw [hgroup]; rfl)

end Machine

end Sys2Proof
end

section
/-! PROOFS. The commands on one item of the tracking queue: DECIDE (R46, R47) and CANCEL (R55, R56). -/

namespace Sys2Proof.Machine

/-! ### Commands taken outside SETUP only (R46, R55, R58) -/

theorem outsideSetup_setup {s : State} (judge : State → Answer) (h : s.control.op = .setup) :
    outsideSetup judge s = .refuse .badState s := by
  simp [outsideSetup, h]

theorem outsideSetup_of_ne_setup {s : State} (judge : State → Answer) (h : s.control.op ≠ .setup) :
    outsideSetup judge s = judge s := by
  unfold outsideSetup
  split
  · contradiction
  · rfl
  · rfl

/-- An owner that leaves operating control alone completes the command with its answer. -/
theorem complete_answer {s : State} {code : BitVec 8} {judge : State → Answer} {a : Answer} (h : s.Awaits code)
    (hj : judge s = a) (ha : a.state.control = s.control) :
    complete code judge s = .next (a.state.completed a.code a.results) := by
  subst hj
  have hr : (judge s).state.control.requests = [] := (congrArg Control.requests ha).trans (awaits_requests h)
  rw [complete_quiet _ h hr, finish_eq]

/-! ### The item named by a tag and a lane (R47, R55) -/

theorem findInLane_eq_some_iff {s : State} {tag lane : Word} {l : LaneId} (hl : l.val = lane.toNat) (i : Item) :
    s.findInLane tag l = some i ↔ s.Names i tag lane := by
  simp only [State.findInLane, State.findItem, State.Names, Option.filter_eq_some_iff, beq_iff_eq, Fin.ext_iff, hl]

theorem findInLane_eq_none {s : State} {tag lane : Word} {l : LaneId} (hl : l.val = lane.toNat)
    (h : s.NamesNone tag lane) : s.findInLane tag l = none :=
  Option.eq_none_iff_forall_ne_some.2 fun i hi => h i ((findInLane_eq_some_iff hl i).1 hi)

theorem mem_of_names {s : State} {tag lane : Word} {i : Item} (h : s.Names i tag lane) : i ∈ s.queue.items := by
  obtain ⟨hfind, -⟩ := h
  exact List.mem_of_find?_eq_some hfind

theorem lane_le_of_names {s : State} {tag lane : Word} {i : Item} (h : s.Names i tag lane) : lane.toNat ≤ 3 := by
  obtain ⟨-, hlane⟩ := h
  omega

/-! ### The words of a DECIDE (R46) -/

theorem wholeBelow_val {n : Nat} {w : Word} {i : Fin n} (h : wholeBelow n w = some i) : i.val = w.toNat := by
  unfold wholeBelow at h
  split at h <;> cases h
  rfl

/-- The word FFh keeps the item's class, and any other word read gives one. -/
theorem classOf_eq_some {w : Word} {cls : Option (Fin 16)} (h : classOf w = some cls) :
    (w = 0xFF → cls = none) ∧ (w ≠ 0xFF → ∃ c : Fin 16, cls = some c ∧ c.val = w.toNat) := by
  unfold classOf at h
  split at h
  next keep => exact ⟨fun _ => (Option.some.inj h).symm, fun given => absurd keep given⟩
  next given =>
    obtain ⟨c, hc, rfl⟩ := Option.map_eq_some_iff.1 h
    exact ⟨fun keep => absurd keep given, fun _ => ⟨c, rfl, wholeBelow_val hc⟩⟩

theorem exists_classOf_iff {w : Word} : (∃ cls, classOf w = some cls) ↔ w.toNat ≤ 15 ∨ w = 0xFF := by
  constructor
  · rintro ⟨cls, h⟩
    obtain ⟨-, hgiven⟩ := classOf_eq_some h
    by_cases keep : w = 0xFF
    · exact .inr keep
    · obtain ⟨c, -, hval⟩ := hgiven keep
      exact .inl (by omega)
  · rintro (number | rfl)
    · by_cases keep : w = 0xFF
      · exact ⟨_, if_pos keep⟩
      · have hc := wholeBelow_eq_some (n := 16) (i := ⟨_, Nat.lt_succ_of_le number⟩) rfl
        exact ⟨_, by rw [classOf, if_neg keep, hc, Option.map_some]⟩
    · exact ⟨_, rfl⟩

/-- The parameters of a DECIDE are what its words say, field by field (section 10.7). -/
structure DecideWords.Says (d : DecideWords) (p : Vector Word 8) : Prop where
  tag : d.tag = p[0]
  lane : d.lane.val = p[1].toNat
  verdict : d.verdict.verdict.code = p[2].toNat
  reason : d.reason = p[3].extractLsb' 0 8
  keptClass : p[4] = 0xFF → d.cls = none
  givenClass : p[4] ≠ 0xFF → ∃ c : Fin 16, d.cls = some c ∧ c.val = p[4].toNat

theorem decideOf_eq_some {p : Vector Word 8} {d : DecideWords} (h : decideOf p = some d) :
    d.Says p ∧ DecideInRange p := by
  unfold decideOf at h
  split at h
  next lane verdict cls hlane hverdict hcls =>
    split at h
    next => cases h
    next hrest =>
      cases h
      obtain ⟨htag, hreason⟩ := not_or.1 hrest
      have hl := wholeBelow_val hlane
      obtain ⟨hkept, hgiven⟩ := classOf_eq_some hcls
      exact ⟨⟨rfl, hl, (decisionOf_code hverdict).symm, rfl, hkept, hgiven⟩,
        htag, by omega, decisionOf_some_iff.1 ⟨_, hverdict⟩, by omega, exists_classOf_iff.1 ⟨_, hcls⟩⟩
  all_goals cases h

theorem decideOf_of_inRange {p : Vector Word 8} (h : DecideInRange p) :
    ∃ d : DecideWords, d.Says p ∧ decideOf p = some d := by
  obtain ⟨htag, hlane, hverdict, hreason, hclass⟩ := h
  obtain ⟨verdict, hv⟩ := decisionOf_some_iff.2 hverdict
  obtain ⟨cls, hc⟩ := exists_classOf_iff.2 hclass
  have hrest : ¬ (p[0] = 0 ∨ 0xEF < p[3].toNat) := not_or.2 ⟨htag, by omega⟩
  have hl := wholeBelow_eq_some (n := 4) (i := ⟨_, Nat.lt_succ_of_le hlane⟩) rfl
  obtain ⟨d, hd⟩ : ∃ d, decideOf p = some d := by
    simp only [decideOf, hl, hv, hc, if_neg hrest]
    exact ⟨_, rfl⟩
  obtain ⟨hsays, -⟩ := decideOf_eq_some hd
  exact ⟨d, hsays, hd⟩

theorem decideOf_eq_none {p : Vector Word 8} (h : ¬ DecideInRange p) : decideOf p = none :=
  Option.eq_none_iff_forall_ne_some.2 fun d hd => by
    obtain ⟨-, inRange⟩ := decideOf_eq_some hd
    exact h inRange

/-! ### DECIDE judged (R47) -/

theorem exec_decideItem (s : State) : exec .decideItem s = complete 0x20 judgeDecide s := rfl

theorem judgeDecide_outOfRange {s : State} (ho : s.control.op ≠ .setup) (hp : ¬ DecideInRange s.host.copy) :
    judgeDecide s = .refuse .badParam s := by
  simp only [judgeDecide, outsideSetup_of_ne_setup _ ho, decideOf_eq_none hp]

theorem judgeDecide_notFound {s : State} (ho : s.control.op ≠ .setup) (hp : DecideInRange s.host.copy)
    (hn : s.NamesNone s.host.copy[0] s.host.copy[1]) : judgeDecide s = .refuse .notFound s := by
  obtain ⟨d, hsays, hd⟩ := decideOf_of_inRange hp
  simp only [judgeDecide, outsideSetup_of_ne_setup _ ho, hd, hsays.tag, findInLane_eq_none hsays.lane hn]

/-- A DECIDE in range that names a live item is judged against that item. -/
theorem judgeDecide_of_names {s : State} {i : Item} (ho : s.control.op ≠ .setup) (hp : DecideInRange s.host.copy)
    (hn : s.Names i s.host.copy[0] s.host.copy[1]) :
    ∃ d : DecideWords, d.Says s.host.copy ∧ judgeDecide s = decideOn d i s := by
  obtain ⟨d, hsays, hd⟩ := decideOf_of_inRange hp
  refine ⟨d, hsays, ?_⟩
  simp only [judgeDecide, outsideSetup_of_ne_setup _ ho, hd, hsays.tag, (findInLane_eq_some_iff hsays.lane i).2 hn]

theorem decideOn_tooLate {d : DecideWords} {i : Item} {s : State} (hf : i.final = true) :
    decideOn d i s = { code := .tooLate, results := i.verdictWords, state := s } := if_pos hf

theorem decideOn_locked {d : DecideWords} {i : Item} {s : State} (hf : i.final = false) (hsrc : i.source = .forced) :
    decideOn d i s = { code := .locked, results := i.verdictWords, state := s } := by
  simp [decideOn, hf, hsrc]

theorem decideOn_open {d : DecideWords} {i : Item} {s : State} (hf : i.final = false) (hsrc : i.source ≠ .forced) :
    decideOn d i s =
      .done (words (flagBit 0 (i.source == .host)) (BitVec.ofNat 16 i.verdict.code) 0 0 0 0)
        (s.updItem i.tag (Item.decided d)) := by
  simp [decideOn, hf, hsrc]

theorem flagBit_zero (b : Bool) : flagBit 0 b = if b then 1 else 0 := by cases b <;> rfl

/-- With distinct tags, changing the record of a live item's tag puts that item's new record in its place. -/
theorem updItem_eq_of_mem {s : State} {i : Item} (hnodup : (s.queue.items.map Item.tag).Nodup)
    (hi : i ∈ s.queue.items) (f : Item → Item) :
    s.updItem i.tag f =
      { s with queue := { s.queue with items := s.queue.items.map (fun x => if x.tag = i.tag then f i else x) } } := by
  have hitems : s.queue.items.map (fun x => if x.tag = i.tag then f x else x)
      = s.queue.items.map (fun x => if x.tag = i.tag then f i else x) := by
    refine List.map_congr_left fun x hx => ?_
    split
    next htag => rw [List.inj_on_of_nodup_map hnodup hx hi htag]
    next => rfl
  rw [State.updItem, hitems]

theorem verdict_of_code {d : Decision} {w : Word} (h : d.verdict.code = w.toNat) :
    d.verdict = if w = 1 then .pass else .reject := by
  have hw : w = BitVec.ofNat 16 d.verdict.code := by rw [h, BitVec.ofNat_toNat, BitVec.setWidth_eq]
  subst hw
  cases d <;> rfl

/-- The decided record, in the words of R47: verdict and reason given, source HOST, and the class alone beside them. -/
theorem decided_eq {d : DecideWords} {p : Vector Word 8} (hd : d.Says p) (i : Item) :
    i.decided d = { i with
      verdict := if p[2] = 1 then .pass else .reject
      reason := p[3].extractLsb' 0 8
      source := .host
      cls := (i.decided d).cls } := by
  rw [← verdict_of_code hd.verdict, ← hd.reason]
  rfl

theorem decided_cls_kept {d : DecideWords} {p : Vector Word 8} (hd : d.Says p) (i : Item) (keep : p[4] = 0xFF) :
    (i.decided d).cls = i.cls := by
  simp [Item.decided, hd.keptClass keep]

theorem decided_cls_given {d : DecideWords} {p : Vector Word 8} (hd : d.Says p) (i : Item) (given : p[4] ≠ 0xFF) :
    (i.decided d).cls.val = p[4].toNat := by
  obtain ⟨c, hcls, hval⟩ := hd.givenClass given
  simp [Item.decided, hcls, hval]

/-- Settles O45: one judgement of the words, one search for the item, and the three cases of its record. -/
theorem decideSetsTheVerdict : Obligations.DecideSetsTheVerdict := by
  refine fun s h => ⟨fun inSetupState => ?_, fun ho outOfRange => ?_, fun ho inRange unnamed => ?_,
    fun i ho inRange names => ⟨fun isFinal => ?_, fun notFinal forced => ?_, fun notFinal notForced hnodup => ?_⟩⟩
  · exact complete_refuse h (outsideSetup_setup _ inSetupState)
  · exact complete_refuse h (judgeDecide_outOfRange ho outOfRange)
  · exact complete_refuse h (judgeDecide_notFound ho inRange unnamed)
  all_goals obtain ⟨d, hsays, hj⟩ := judgeDecide_of_names ho inRange names
  · exact complete_answer h (hj.trans (decideOn_tooLate isFinal)) rfl
  · exact complete_answer h (hj.trans (decideOn_locked notFinal forced)) rfl
  · refine ⟨i.decided d, decided_eq hsays i, decided_cls_kept hsays i, decided_cls_given hsays i, ?_⟩
    rw [exec_decideItem, complete_done h (hj.trans (decideOn_open notFinal notForced)) rfl,
      updItem_eq_of_mem hnodup (mem_of_names names), flagBit_zero]
    simp only [words, beq_iff_eq]

/-! ### The words of a CANCEL (R55) -/

theorem tagLaneOf_eq_none {p : Vector Word 8} (h : p[0] = 0 ∨ 3 < p[1].toNat) : tagLaneOf p = none := by
  unfold tagLaneOf
  split
  next => rfl
  next htag => rw [wholeBelow_eq_none (h.resolve_left htag), Option.map_none]

theorem tagLaneOf_of_inRange {p : Vector Word 8} (htag : p[0] ≠ 0) (hlane : p[1].toNat ≤ 3) :
    ∃ l : LaneId, l.val = p[1].toNat ∧ tagLaneOf p = some (p[0], l) := by
  have hl := wholeBelow_eq_some (n := 4) (i := ⟨_, Nat.lt_succ_of_le hlane⟩) rfl
  exact ⟨_, rfl, by rw [tagLaneOf, if_neg htag, hl, Option.map_some]⟩

/-! ### An item cancelled (R27, R56, R75) -/

theorem updLane_updLane (s : State) (l : LaneId) (f g : Lane → Lane) :
    (s.updLane l f).updLane l g = s.updLane l (fun x => g (f x)) := by
  simp [State.updLane, upd]

/-- An update that leaves the lane as it is leaves the part as it is. -/
theorem updLane_eq_self {s : State} {l : LaneId} {f : Lane → Lane} (h : f s.lanes[l] = s.lanes[l]) :
    s.updLane l f = s := by
  rw [State.updLane, upd, h]
  simp

theorem updLane_congr {s : State} {l : LaneId} {f g : Lane → Lane} (h : f s.lanes[l] = g s.lanes[l]) :
    s.updLane l f = s.updLane l g := by
  rw [State.updLane, State.updLane, upd, upd, h]

/-- The lane with its open-item link absent, if it was on the tag. -/
def Lane.unlinkTag (tag : Tag) (x : Lane) : Lane :=
  { x with detector := if x.detector.link = some tag then x.detector.unlink else x.detector }

theorem unlink_eq (s : State) (l : LaneId) (tag : Tag) : s.unlink l tag = s.updLane l (Lane.unlinkTag tag) := by
  unfold State.unlink
  split
  next h =>
    have hlink : s.lanes[l].detector.link = some tag := by simpa [State.linked] using h
    exact updLane_congr (by rw [Lane.unlinkTag, if_pos hlink])
  next h =>
    have hlink : s.lanes[l].detector.link ≠ some tag := by simpa [State.linked] using h
    exact (updLane_eq_self (by rw [Lane.unlinkTag, if_neg hlink])).symm

/-- The freeing of a record and the arrival of an event touch different parts of the state. -/
theorem freeItem_arrive (s : State) (r : EventRecord) (tag : Tag) :
    (s.arrive r).freeItem tag = (s.freeItem tag).arrive r := by
  simp only [arrive_eq]
  rfl

theorem freeItem_eq (s : State) (tag : Tag) :
    s.freeItem tag =
      { s with queue := { s.queue with items := s.queue.items.filter (fun x => x.tag ≠ tag) }
               list := { s.list with
                 entries := s.list.entries.map (fun e => if e.tag = tag then e.unmark else e) } } := by
  have hitems : s.queue.items.filter (fun x => x.tag != tag) = s.queue.items.filter (fun x => x.tag ≠ tag) :=
    List.filter_congr fun x _ => Bool.eq_iff_iff.2 (by simp)
  rw [← hitems]
  rfl

theorem cancelItem_eq (s : State) (i : Item) :
    s.cancelItem i = State.arrive
      { s with
        queue := { s.queue with items := s.queue.items.filter (fun x => x.tag ≠ i.tag) }
        list := { s.list with entries := (s.list.entries.filter (fun e => !e.plannedFor i.tag)).map (fun e =>
          if e.tag = i.tag then e.unmark else e) }
        lanes := upd s.lanes i.lane (fun x =>
          { Lane.unlinkTag i.tag x with counters := x.counters.bump .cancelled }) }
      (s.recordNow .itemCancelled (laneUnit i.lane) i.tag 0 0) := by
  simp only [State.cancelItem, unlink_eq, State.countLane, updLane_updLane, report_eq, freeItem_arrive]
  rw [freeItem_eq]
  rfl

theorem cancelItem_control (s : State) (i : Item) : (s.cancelItem i).control = s.control := by
  rw [cancelItem_eq, arrive_eq]

/-! ### CANCEL judged (R55) -/

theorem exec_cancel (s : State) : exec .cancel s = complete 0x21 judgeCancel s := rfl

theorem judgeCancel_outOfRange {s : State} (ho : s.control.op ≠ .setup)
    (hp : s.host.copy[0] = 0 ∨ 3 < s.host.copy[1].toNat) : judgeCancel s = .refuse .badParam s := by
  simp only [judgeCancel, outsideSetup_of_ne_setup _ ho, tagLaneOf_eq_none hp]

theorem judgeCancel_notFound {s : State} (ho : s.control.op ≠ .setup) (htag : s.host.copy[0] ≠ 0)
    (hlane : s.host.copy[1].toNat ≤ 3) (hn : s.NamesNone s.host.copy[0] s.host.copy[1]) :
    judgeCancel s = .refuse .notFound s := by
  obtain ⟨l, hl, hwords⟩ := tagLaneOf_of_inRange htag hlane
  simp only [judgeCancel, outsideSetup_of_ne_setup _ ho, hwords, findInLane_eq_none hl hn]

theorem judgeCancel_of_names {s : State} {i : Item} (ho : s.control.op ≠ .setup) (htag : s.host.copy[0] ≠ 0)
    (hn : s.Names i s.host.copy[0] s.host.copy[1]) :
    judgeCancel s = .done (s.cancelWords i) (s.cancelItem i) := by
  obtain ⟨l, hl, hwords⟩ := tagLaneOf_of_inRange htag (lane_le_of_names hn)
  simp only [judgeCancel, outsideSetup_of_ne_setup _ ho, hwords, (findInLane_eq_some_iff hl i).2 hn]

/-- Settles O46: the named item is cancelled in the order of R56, and the parts that order touches are independent. -/
theorem cancelRemovesTheItem : Obligations.CancelRemovesTheItem := by
  refine fun s h => ⟨fun inSetupState => ?_, fun ho outOfRange => ?_, fun ho htag hlane unnamed => ?_,
    fun i ho htag names => ?_⟩
  · exact complete_refuse h (outsideSetup_setup _ inSetupState)
  · exact complete_refuse h (judgeCancel_outOfRange ho outOfRange)
  · exact complete_refuse h (judgeCancel_notFound ho htag hlane unnamed)
  · rw [exec_cancel, complete_done h (judgeCancel_of_names ho htag names) (cancelItem_control s i), cancelItem_eq]
    rfl

end Sys2Proof.Machine
end

section
/-! PROOFS. SET_STATION and GET_STATION (R87, R88). -/

namespace Sys2Proof.Machine

theorem exists_wholeBelow {n : Nat} {w : Word} (h : w.toNat < n) :
    ∃ i : Fin n, i.val = w.toNat ∧ wholeBelow n w = some i :=
  ⟨⟨_, h⟩, rfl, wholeBelow_eq_some rfl⟩

/-- One of two words that each have their own bound is out of range, the first judged first. -/
theorem wholeBelow_pair_outOfRange {m n : Nat} {a b : Word} (h : m ≤ a.toNat ∨ n ≤ b.toNat) :
    wholeBelow m a = none ∨ ∃ i, wholeBelow m a = some i ∧ wholeBelow n b = none := by
  by_cases ha : a.toNat < m
  · obtain ⟨i, -, hi⟩ := exists_wholeBelow ha
    exact .inr ⟨i, hi, wholeBelow_eq_none (by omega)⟩
  · exact .inl (wholeBelow_eq_none (not_lt.1 ha))

/-! ### The coded fields of a SET_STATION (section 10.7) -/

theorem selectorOf_code {n : Nat} {x : Selector} (h : selectorOf n = some x) : x.code = n := by
  unfold selectorOf at h
  split at h <;> cases h <;> rfl

theorem exists_selectorOf {n : Nat} (h : n ≤ 2) : ∃ x, selectorOf n = some x := by
  interval_cases n <;> exact ⟨_, rfl⟩

theorem pulseModeOf_code {n : Nat} {x : PulseMode} (h : pulseModeOf n = some x) : x.code = n := by
  unfold pulseModeOf at h
  split at h <;> cases h <;> rfl

theorem exists_pulseModeOf {n : Nat} (h : n ≤ 2) : ∃ x, pulseModeOf n = some x := by
  interval_cases n <;> exact ⟨_, rfl⟩

theorem confirmOf_code {n : Nat} {x : Option InputId} (h : confirmOf n = some x) : confirmCode x = n := by
  unfold confirmOf at h
  split at h <;> cases h <;> rfl

theorem exists_confirmOf {n : Nat} (h : n ≤ 4) : ∃ x, confirmOf n = some x := by
  interval_cases n <;> exact ⟨_, rfl⟩

theorem selector_code_le (x : Selector) : x.code ≤ 2 := by cases x <;> decide

theorem pulseMode_code_le (x : PulseMode) : x.code ≤ 2 := by cases x <;> decide

theorem confirmCode_le (x : Option InputId) : confirmCode x ≤ 4 := by
  cases x with
  | none => decide
  | some i => exact i.isLt.le

theorem selector_code_lt (x : Selector) : x.code < 2 ^ 2 := (selector_code_le x).trans_lt (by decide)

theorem pulseMode_code_lt (x : PulseMode) : x.code < 2 ^ 2 := (pulseMode_code_le x).trans_lt (by decide)

theorem confirmCode_lt (x : Option InputId) : confirmCode x < 2 ^ 3 := (confirmCode_le x).trans_lt (by decide)

theorem runtime_code_lt (x : Runtime) : x.code < 2 ^ 2 := by cases x <;> decide

theorem pulseWordsFit_iff (mode : PulseMode) (pulse cap : Word) :
    pulseWordsFit mode pulse cap = true ↔ (mode.code < 2 → pulse ≠ 0 ∧ cap = 0) ∧ (mode.code = 2 → cap ≠ 0) := by
  cases mode <;> simp [pulseWordsFit, PulseMode.code]

/-- The output field of a SET_STATION is a byte, judged as a whole word (R87). -/
theorem outputField_toNat (b : BitVec 8) : (b.zeroExtend 16 : Word).toNat = b.toNat :=
  BitVec.toNat_setWidth_of_le (by decide)

/-! ### SET_STATION (R87) -/

/-- The words of a SET_STATION, but for the station number, are in range (R87). -/
def StationWordsFit (p : Vector Word 8) : Prop :=
  (p[2].extractLsb' 8 8).toNat ≤ 15 ∧ (p[2].extractLsb' 0 8 ++ p[1] : Distance) ≠ 0
    ∧ (p[3].extractLsb' 1 2).toNat ≤ 2 ∧ (p[3].extractLsb' 3 2).toNat ≤ 2 ∧ (p[3].extractLsb' 5 3).toNat ≤ 4
    ∧ p[7] ≠ 0
    ∧ ((p[3].extractLsb' 3 2).toNat < 2 → p[5] ≠ 0 ∧ p[6] = 0)
    ∧ ((p[3].extractLsb' 3 2).toNat = 2 → p[6] ≠ 0)

theorem stationInRange_iff (p : Vector Word 8) : StationInRange p ↔ p[0].toNat ≤ 15 ∧ StationWordsFit p := Iff.rfl

/-- What is read from the words of a SET_STATION is what they say, and nothing is read from words out of range. -/
theorem stationConfigOf_eq_some {p : Vector Word 8} {c : StationConfig} (h : stationConfigOf p = some c) :
    c.Says p ∧ StationWordsFit p := by
  unfold stationConfigOf at h
  split at h
  next selector mode confirm output hselector hmode hconfirm houtput =>
    have hs := selectorOf_code hselector
    have hm := pulseModeOf_code hmode
    have hc := confirmOf_code hconfirm
    have ho := (wholeBelow_val houtput).trans (outputField_toNat _)
    dsimp only at h
    split at h
    next => cases h
    next hranges =>
      cases h
      obtain ⟨hoffset, hrest⟩ := not_or.1 hranges
      obtain ⟨hwindow, hpulse⟩ := not_or.1 hrest
      obtain ⟨hlength, hcap⟩ := (pulseWordsFit_iff mode p[5] p[6]).1 (by simpa using hpulse)
      rw [hm] at hlength hcap
      exact ⟨⟨rfl, rfl, rfl, hs, rfl, hm, rfl, rfl, ho, hc, rfl, rfl, rfl⟩,
        by omega, hoffset, hs ▸ selector_code_le selector, hm ▸ pulseMode_code_le mode, hc ▸ confirmCode_le confirm,
        hwindow, hlength, hcap⟩
  all_goals cases h

theorem stationConfigOf_of_fit {p : Vector Word 8} (h : StationWordsFit p) :
    ∃ c : StationConfig, c.Says p ∧ stationConfigOf p = some c := by
  obtain ⟨houtput, hoffset, hselector, hmode, hconfirm, hwindow, hlength, hcap⟩ := h
  obtain ⟨selector, hs⟩ := exists_selectorOf hselector
  obtain ⟨mode, hm⟩ := exists_pulseModeOf hmode
  obtain ⟨confirm, hc⟩ := exists_confirmOf hconfirm
  obtain ⟨output, -, ho⟩ := exists_wholeBelow (n := 16) ((outputField_toNat _).trans_lt (Nat.lt_succ_of_le houtput))
  rw [← pulseModeOf_code hm] at hlength hcap
  have hpulse : pulseWordsFit mode p[5] p[6] = true := (pulseWordsFit_iff mode p[5] p[6]).2 ⟨hlength, hcap⟩
  obtain ⟨c, hconfig⟩ : ∃ c, stationConfigOf p = some c := by
    simp only [stationConfigOf, hs, hm, hc, ho]
    exact ⟨_, if_neg (not_or.2 ⟨hoffset, not_or.2 ⟨hwindow, by simp [hpulse]⟩⟩)⟩
  obtain ⟨hsays, -⟩ := stationConfigOf_eq_some hconfig
  exact ⟨c, hsays, hconfig⟩

theorem stationConfigOf_eq_none {p : Vector Word 8} (h : ¬ StationWordsFit p) : stationConfigOf p = none :=
  Option.eq_none_iff_forall_ne_some.2 fun c hc => by
    obtain ⟨-, hfit⟩ := stationConfigOf_eq_some hc
    exact h hfit

theorem exec_setStation (s : State) : exec .setStation s = complete 0x05 judgeSetStation s := rfl

theorem exec_setStation_of_inRange {s : State} (h : s.Awaits 0x05) (ho : s.control.op = .setup)
    (hp : StationInRange s.host.copy) :
    ∃ (n : StationId) (c : StationConfig), n.val = s.host.copy[0].toNat ∧ c.Says s.host.copy
      ∧ exec .setStation s = .next ((s.updStation n fun x => { x with config := c }).completed .done noWords) := by
  obtain ⟨hstation, hfit⟩ := (stationInRange_iff _).1 hp
  obtain ⟨n, hn, hnumber⟩ := exists_wholeBelow (Nat.lt_succ_of_le hstation)
  obtain ⟨c, hc, hconfig⟩ := stationConfigOf_of_fit hfit
  have hj : judgeSetStation s = .done noWords (s.updStation n fun x => { x with config := c }) := by
    rw [judgeSetStation, inSetup_setup _ ho, hnumber, hconfig]
  exact ⟨n, c, hn, hc, by rw [exec_setStation, complete_done h hj (updStation_control ..)]⟩

theorem judgeSetStation_outOfRange {s : State} (ho : s.control.op = .setup) (hp : ¬ StationInRange s.host.copy) :
    judgeSetStation s = .refuse .badParam s := by
  rw [judgeSetStation, inSetup_setup _ ho]
  by_cases hstation : s.host.copy[0].toNat ≤ 15
  · have hfit : ¬ StationWordsFit s.host.copy := fun hfit => hp ((stationInRange_iff _).2 ⟨hstation, hfit⟩)
    obtain ⟨n, -, hnumber⟩ := exists_wholeBelow (Nat.lt_succ_of_le hstation)
    rw [hnumber, stationConfigOf_eq_none hfit]
  · rw [wholeBelow_eq_none (by omega)]

/-! ### The packed words of GET_STATION (section 10.7) -/

theorem stationFlags_bits (c : StationConfig) :
    (stationFlags c).getLsbD 0 = c.enabled ∧ (stationFlags c).getLsbD 8 = c.falling := by
  have hselector : c.selector.code.testBit 7 = false :=
    Nat.testBit_lt_two_pow ((selector_code_lt _).trans (by decide))
  have hmode : c.mode.code.testBit 5 = false := Nat.testBit_lt_two_pow ((pulseMode_code_lt _).trans (by decide))
  have hconfirm : (confirmCode c.confirm).testBit 3 = false := Nat.testBit_lt_two_pow (confirmCode_lt _)
  constructor <;>
    simp [-BitVec.getLsbD_eq_getElem, stationFlags, getLsbD_flagBit, getLsbD_fieldAt, hselector, hmode, hconfirm]

/-- The selector, mode and confirm fields and the reserved bits, each out of the flags word. -/
theorem stationFlags_fields (c : StationConfig) :
    (stationFlags c).extractLsb' 1 2 = BitVec.ofNat 2 c.selector.code
    ∧ (stationFlags c).extractLsb' 3 2 = BitVec.ofNat 2 c.mode.code
    ∧ (stationFlags c).extractLsb' 5 3 = BitVec.ofNat 3 (confirmCode c.confirm)
    ∧ (stationFlags c).extractLsb' 9 7 = 0 := by
  have hselector := selector_code_lt c.selector
  have hmode := pulseMode_code_lt c.mode
  have hconfirm := confirmCode_lt c.confirm
  refine ⟨?_, ?_, ?_, ?_⟩ <;>
    simp [stationFlags, BitVec.extractLsb'_or, extractLsb'_flagBit_outside, extractLsb'_fieldAt_same,
      extractLsb'_fieldAt_below, extractLsb'_fieldAt_above _ hselector, extractLsb'_fieldAt_above _ hmode,
      extractLsb'_fieldAt_above _ hconfirm]

/-- The lane and the output line, each out of their word. -/
theorem laneOutput_fields (l : LaneId) (o : OutputId) :
    (fieldAt 0 l.val ||| fieldAt 8 o.val).extractLsb' 0 2 = BitVec.ofNat 2 l.val
    ∧ (fieldAt 0 l.val ||| fieldAt 8 o.val).extractLsb' 8 4 = BitVec.ofNat 4 o.val := by
  have hlane : l.val < 2 ^ 2 := l.isLt
  constructor <;>
    simp [BitVec.extractLsb'_or, extractLsb'_fieldAt_same, extractLsb'_fieldAt_below,
      extractLsb'_fieldAt_above _ hlane]

/-- The miss limit, the runtime state and the pulse bit, each out of their word. -/
theorem stationStateWord_fields (st : Station) :
    (stationStateWord st).extractLsb' 0 4 = st.config.missLimit
    ∧ (stationStateWord st).extractLsb' 4 2 = BitVec.ofNat 2 st.runtime.code
    ∧ (stationStateWord st).getLsbD 8 = st.pulse.isSome := by
  have hlimit : st.config.missLimit.toNat < 2 ^ 4 := st.config.missLimit.isLt
  have hruntime := runtime_code_lt st.runtime
  have hlimitBit : st.config.missLimit.toNat.testBit 8 = false :=
    Nat.testBit_lt_two_pow (hlimit.trans (by decide))
  have hruntimeBit : st.runtime.code.testBit 4 = false := Nat.testBit_lt_two_pow (hruntime.trans (by decide))
  refine ⟨?_, ?_, ?_⟩
  · simp [stationStateWord, BitVec.extractLsb'_or, extractLsb'_flagBit_outside, extractLsb'_fieldAt_same,
      extractLsb'_fieldAt_below]
  · simp [stationStateWord, BitVec.extractLsb'_or, extractLsb'_flagBit_outside, extractLsb'_fieldAt_same,
      extractLsb'_fieldAt_above _ hlimit]
  · simp [-BitVec.getLsbD_eq_getElem, stationStateWord, getLsbD_flagBit, getLsbD_fieldAt, hlimitBit, hruntimeBit]

/-- A field that holds a code below its width reads that code. -/
theorem toNat_of_field {len n : Nat} {b : BitVec len} (h : b = BitVec.ofNat len n) (hn : n < 2 ^ len) :
    b.toNat = n := by
  rw [h, BitVec.toNat_ofNat, Nat.mod_eq_of_lt hn]

/-! ### GET_STATION (R88) -/

theorem exec_getStation (s : State) : exec .getStation s = complete 0x06 judgeGetStation s := rfl

theorem exec_getStation_outOfRange {s : State} (h : s.Awaits 0x06)
    (hp : 15 < s.host.copy[0].toNat ∨ 1 < s.host.copy[1].toNat) :
    exec .getStation s = .next (s.completed .badParam noWords) := by
  have hj : judgeGetStation s = .refuse .badParam s := by
    rcases wholeBelow_pair_outOfRange (m := 16) (n := 2) hp with hstation | ⟨n, hstation, hpart⟩
    · simp only [judgeGetStation, hstation]
    · simp only [judgeGetStation, hstation, hpart]
  rw [exec_getStation, complete_refuse h hj]

theorem exec_getStation_of_inRange {s : State} (h : s.Awaits 0x06) {n : StationId} {part : Fin 2}
    (hn : n.val = s.host.copy[0].toNat) (hpart : part.val = s.host.copy[1].toNat) :
    exec .getStation s = .next (s.completed .done (stationWords s.stations[n] part)) := by
  have hj : judgeGetStation s = .done (stationWords s.stations[n] part) s := by
    simp only [judgeGetStation, wholeBelow_eq_some hn, wholeBelow_eq_some hpart]
  rw [exec_getStation, complete_done h hj rfl]

/-- Settles O37: SET_STATION by the judgement of its words, GET_STATION by the fields of its packed words. -/
theorem stationCommands : Obligations.StationCommands := by
  refine ⟨fun s h => ⟨fun outsideSetup => ?_, fun inSetupState outOfRange => ?_, fun inSetupState inRange => ?_⟩,
    fun s h => ⟨fun outOfRange => ?_, fun n hn hpart => ?_, fun n hn hpart => ?_⟩⟩
  · exact complete_inSetup_badState _ h outsideSetup
  · exact complete_refuse h (judgeSetStation_outOfRange inSetupState outOfRange)
  · exact exec_setStation_of_inRange h inSetupState inRange
  · exact exec_getStation_outOfRange h outOfRange
  · obtain ⟨henabled, hfalling⟩ := stationFlags_bits s.stations[n].config
    obtain ⟨hselector, hmode, hconfirm, hreserved⟩ := stationFlags_fields s.stations[n].config
    obtain ⟨hlane, houtput⟩ := laneOutput_fields s.stations[n].config.lane s.stations[n].config.output
    exact ⟨_, exec_getStation_of_inRange (part := 0) h hn (by rw [hpart]; rfl), henabled,
      toNat_of_field hselector (selector_code_lt _), toNat_of_field hmode (pulseMode_code_lt _),
      toNat_of_field hconfirm (confirmCode_lt _), hfalling, hreserved, toNat_of_field hlane (Fin.isLt _),
      toNat_of_field houtput (Fin.isLt _), joinWords_lo_hi _, rfl, rfl⟩
  · obtain ⟨hlimit, hruntime, hpulse⟩ := stationStateWord_fields s.stations[n]
    refine ⟨_, exec_getStation_of_inRange (part := 1) h hn (by rw [hpart]; rfl), rfl, rfl, rfl, hlimit, ?_, hpulse,
      rfl, rfl⟩
    exact (toNat_of_field hruntime (runtime_code_lt _)).trans (by cases s.stations[n].runtime <;> rfl)

end Sys2Proof.Machine
end

section
/-! PROOFS. The configuration checks (section 5.6): the first failure found, in check number order (R105, R94). -/

namespace Sys2Proof.Machine

/-! ### First failures -/

/-- A search for a failed check reports the first failure of a predicate when there is one, and nothing when nothing
fails. -/
structure Reports (found : Option CheckFailure) (fails : Nat → Nat → Prop) : Prop where
  first : ∀ check unit, FirstFailure fails check unit →
    found = some { check := BitVec.ofNat 16 check, reported := BitVec.ofNat 16 unit }
  nothing : (∀ check unit, ¬ fails check unit) → found = none

theorem Reports.congr {found : Option CheckFailure} {fails fails' : Nat → Nat → Prop} (h : Reports found fails)
    (same : ∀ check unit, fails' check unit ↔ fails check unit) : Reports found fails' := by
  have heq : fails' = fails := funext fun check => funext fun unit => propext (same check unit)
  exact heq ▸ h

/-- Of two searches, the one for the lower check numbers first, the second counts where the first finds nothing. -/
theorem Reports.orElse {found later : Option CheckFailure} {P Q : Nat → Nat → Prop} (hP : Reports found P)
    (hQ : Reports later Q) (before : ∀ {k u k' u'}, P k u → Q k' u' → k < k') :
    Reports (found <|> later) (fun k u => P k u ∨ Q k u) where
  first := by
    rintro check unit ⟨hfails | hfails, least⟩
    · have hfirst : FirstFailure P check unit := ⟨hfails, fun k u lower hlower => least k u lower (.inl hlower)⟩
      rw [hP.first _ _ hfirst]
      rfl
    · have hnone : found = none := hP.nothing fun k u hlower => least k u (.inl (before hlower hfails)) (.inl hlower)
      have hfirst : FirstFailure Q check unit := ⟨hfails, fun k u lower hlower => least k u lower (.inr hlower)⟩
      rw [hnone, hQ.first _ _ hfirst]
      rfl
  nothing := fun noFailure => by
    rw [hP.nothing fun k u hk => noFailure k u (.inl hk), hQ.nothing fun k u hk => noFailure k u (.inr hk)]
    rfl

/-- One check, tried on candidates in ascending order of number, reports its first failure. -/
theorem firstFailure_reports {α : Type} (check : Nat) {fails : α → Bool} {code : α → Nat} {candidates : List α}
    {P : α → Prop} (ascending : candidates.Pairwise (fun x y => code x < code y))
    (hfails : ∀ x, fails x = true ↔ P x) :
    Reports (firstFailure (BitVec.ofNat 16 check) fails code candidates)
      (fun k u => k = check ∧ ∃ x ∈ candidates, code x = u ∧ P x) where
  first := by
    rintro k u ⟨⟨rfl, x, hx, rfl, hPx⟩, least⟩
    obtain ⟨before, after, rfl⟩ := List.append_of_mem hx
    obtain ⟨-, -, hbefore⟩ := List.pairwise_append.1 ascending
    have hpass : ∀ y ∈ before, (!fails y) = true := fun y hy => by
      have lower : code y < code x := hbefore y hy x (List.mem_cons_self ..)
      have hPy : ¬ P y := fun hPy =>
        least k (code y) (.inr ⟨rfl, lower⟩) ⟨rfl, y, List.mem_append_left _ hy, rfl, hPy⟩
      simpa using mt (hfails y).1 hPy
    have hfind := List.find?_eq_some_iff_append.2 ⟨(hfails x).2 hPx, before, after, rfl, hpass⟩
    rw [firstFailure, hfind, Option.map_some]
  nothing := fun noFailure => by
    have hfind : candidates.find? fails = none := List.find?_eq_none.2 fun x hx hx' =>
      noFailure check (code x) ⟨rfl, x, hx, rfl, (hfails x).1 hx'⟩
    rw [firstFailure, hfind, Option.map_none]

/-! ### The six checks -/

theorem verdictDependent_iff (c : StationConfig) :
    c.verdictDependent = true ↔ c.selector ≠ .any ∨ c.classMask ≠ 0xFFFF := by
  simp [StationConfig.verdictDependent]

theorem check2_fails_iff (s : State) (n : StationId) : (!s.check2 n) = true ↔ s.stationFails 2 n := by
  simp [State.check2, State.stationFails]

theorem check3_fails_iff (s : State) (n : StationId) : (!s.check3 n) = true ↔ s.stationFails 3 n := by
  simp [State.check3, State.stationFails, imp_iff_not_or]

theorem check4_fails_iff (s : State) (n : StationId) : (!s.check4 n) = true ↔ s.stationFails 4 n := by
  simp [State.check4, State.stationFails, verdictDependent_iff]

theorem check5_fails_iff (s : State) (l : LaneId) : (!s.check5 l) = true ↔ s.lanes[l].config.Disordered := by
  simp [State.check5, LaneConfig.Disordered, imp_iff_not_or]

theorem shareConfirm_iff (s : State) (n m : StationId) :
    s.shareConfirm n m = true ↔
      s.stations[n].config.confirm ≠ none ∧ s.stations[m].config.confirm = s.stations[n].config.confirm := by
  rw [State.shareConfirm, Bool.and_eq_true, Option.isSome_iff_ne_none, beq_iff_eq,
    eq_comm (b := s.stations[m].config.confirm)]

theorem stationFails_check {s : State} {check : Nat} {n : StationId} (h : s.stationFails check n) :
    check = 2 ∨ check = 3 ∨ check = 4 := by
  rcases h with ⟨rfl, -⟩ | ⟨rfl, -⟩ | ⟨rfl, -⟩ <;> simp

/-- Checks 2, 3 and 4 of each candidate, one check after another, and then the checks that follow. -/
theorem stationChecks_report (s : State) {candidates : List StationId} {rest : Option CheckFailure}
    {Q : Nat → Nat → Prop} (ascending : candidates.Pairwise (fun n m => n.val < m.val)) (hrest : Reports rest Q)
    (after : ∀ {k u}, Q k u → 4 < k) :
    Reports
      (firstFailure 2 (fun n => !s.check2 n) Fin.val candidates
        <|> firstFailure 3 (fun n => !s.check3 n) Fin.val candidates
        <|> firstFailure 4 (fun n => !s.check4 n) Fin.val candidates <|> rest)
      (fun k u => (∃ n ∈ candidates, n.val = u ∧ s.stationFails k n) ∨ Q k u) := by
  have report2 := firstFailure_reports 2 ascending (check2_fails_iff s)
  have report3 := firstFailure_reports 3 ascending (check3_fails_iff s)
  have report4 := firstFailure_reports 4 ascending (check4_fails_iff s)
  refine (report2.orElse (report3.orElse (report4.orElse hrest ?_) ?_) ?_).congr fun k u => ?_
  · rintro k u k' u' ⟨rfl, -⟩ hQ
    exact after hQ
  · rintro k u k' u' ⟨rfl, -⟩ (⟨rfl, -⟩ | hQ)
    · decide
    · exact Nat.lt_of_succ_lt (after hQ)
  · rintro k u k' u' ⟨rfl, -⟩ (⟨rfl, -⟩ | ⟨rfl, -⟩ | hQ)
    · decide
    · decide
    · exact (by decide : 2 < 4).trans (after hQ)
  · constructor
    · rintro (⟨n, hn, hu, hfails⟩ | hQ)
      · rcases stationFails_check hfails with rfl | rfl | rfl
        · exact .inl ⟨rfl, n, hn, hu, hfails⟩
        · exact .inr (.inl ⟨rfl, n, hn, hu, hfails⟩)
        · exact .inr (.inr (.inl ⟨rfl, n, hn, hu, hfails⟩))
      · exact .inr (.inr (.inr hQ))
    · rintro (⟨rfl, h⟩ | ⟨rfl, h⟩ | ⟨rfl, h⟩ | hQ)
      · exact .inl h
      · exact .inl h
      · exact .inl h
      · exact .inr hQ

/-- Check 5 and then check 6, each on its own candidates. -/
theorem laneAndConfirmChecks_report {lanes : List LaneId} {stations : List StationId} {fails5 : LaneId → Bool}
    {fails6 : StationId → Bool} {P5 : LaneId → Prop} {P6 : StationId → Prop}
    (ascending5 : lanes.Pairwise (fun l m => l.val < m.val))
    (ascending6 : stations.Pairwise (fun n m => n.val < m.val))
    (hfails5 : ∀ l, fails5 l = true ↔ P5 l) (hfails6 : ∀ n, fails6 n = true ↔ P6 n) :
    Reports (firstFailure 5 fails5 Fin.val lanes <|> firstFailure 6 fails6 Fin.val stations)
      (fun k u => (k = 5 ∧ ∃ l ∈ lanes, l.val = u ∧ P5 l) ∨ (k = 6 ∧ ∃ n ∈ stations, n.val = u ∧ P6 n)) := by
  refine (firstFailure_reports 5 ascending5 hfails5).orElse (firstFailure_reports 6 ascending6 hfails6) ?_
  rintro k u k' u' ⟨rfl, -⟩ ⟨rfl, -⟩
  decide

theorem stationIds_ascending : stationIds.Pairwise (fun n m => n.val < m.val) := by decide

theorem laneIds_ascending : laneIds.Pairwise (fun l m => l.val < m.val) := by decide

/-! ### The checks of STATION_ENABLE on (R94) -/

theorem enableFailure_reports (s : State) (n : StationId) : Reports (s.enableFailure n) (s.enableFails n) := by
  have hcheck5 : ∀ l, (s.stations[n].config.verdictDependent && !s.check5 l) = true ↔
      s.lanes[l].config.Disordered
        ∧ (s.stations[n].config.selector ≠ .any ∨ s.stations[n].config.classMask ≠ 0xFFFF) := fun l => by
    rw [Bool.and_eq_true, verdictDependent_iff, check5_fails_iff, and_comm]
  have hcheck6 : ∀ m, (m != n && s.stations[m].runtime == .enabled && s.shareConfirm n m) = true ↔
      m ≠ n ∧ s.stations[m].runtime = .enabled ∧ s.stations[n].config.confirm ≠ none
        ∧ s.stations[m].config.confirm = s.stations[n].config.confirm := fun m => by
    rw [Bool.and_eq_true, Bool.and_eq_true, shareConfirm_iff, bne_iff_ne, beq_iff_eq, and_assoc]
  have last := laneAndConfirmChecks_report (List.pairwise_singleton _ s.stations[n].config.lane) stationIds_ascending
    hcheck5 hcheck6
  refine (stationChecks_report s (List.pairwise_singleton _ n) last ?_).congr fun k u => ?_
  · rintro k u (⟨rfl, -⟩ | ⟨rfl, -⟩) <;> decide
  · simp only [State.enableFails, List.mem_singleton, exists_eq_left, stationIds_mem, true_and]

/-! ### The checks of START (R105) -/

theorem mem_configured (s : State) (n : StationId) : n ∈ s.configured ↔ s.stations[n].config.enabled = true := by
  simp [State.configured]

theorem configured_ascending (s : State) : s.configured.Pairwise (fun n m => n.val < m.val) :=
  stationIds_ascending.filter _

theorem needsDecision_iff (s : State) (l : LaneId) :
    s.needsDecision l = true ↔ ∃ n : StationId, s.stations[n].config.enabled = true ∧ s.stations[n].config.lane = l
      ∧ (s.stations[n].config.selector ≠ .any ∨ s.stations[n].config.classMask ≠ 0xFFFF) := by
  simp only [State.needsDecision, List.any_eq_true, mem_configured, Bool.and_eq_true, beq_iff_eq, verdictDependent_iff]

theorem sharesBelow_iff (s : State) (n : StationId) :
    s.configured.any (fun m => decide (m < n) && s.shareConfirm n m) = true ↔
      ∃ m : StationId, m < n ∧ s.stations[m].config.enabled = true ∧ s.stations[n].config.confirm ≠ none
        ∧ s.stations[m].config.confirm = s.stations[n].config.confirm := by
  simp only [List.any_eq_true, mem_configured, Bool.and_eq_true, decide_eq_true_eq, shareConfirm_iff]
  exact exists_congr fun m => and_left_comm

/-- Check 1: some lane is enabled. -/
theorem check1_reports (s : State) :
    Reports (if laneIds.any (fun l => s.lanes[l].config.enabled) then none else some { check := 1, reported := 0 })
      (fun k u => k = 1 ∧ u = 0 ∧ ∀ l : LaneId, s.lanes[l].config.enabled = false) where
  first := by
    rintro k u ⟨⟨rfl, rfl, hoff⟩, -⟩
    rw [if_neg (by simp [-Fin.getElem_fin, hoff])]
    rfl
  nothing := fun noFailure => by
    refine if_pos (by_contra fun hany => noFailure 1 0 ⟨rfl, rfl, fun l => ?_⟩)
    simpa [-Fin.getElem_fin] using fun hl => hany (List.any_eq_true.2 ⟨l, laneIds_mem l, hl⟩)

theorem startFailure_reports (s : State) : Reports s.startFailure s.startFails := by
  have hcheck5 : ∀ l, (s.needsDecision l && !s.check5 l) = true ↔ s.lanes[l].config.Disordered
      ∧ ∃ n : StationId, s.stations[n].config.enabled = true ∧ s.stations[n].config.lane = l
        ∧ (s.stations[n].config.selector ≠ .any ∨ s.stations[n].config.classMask ≠ 0xFFFF) := fun l => by
    rw [Bool.and_eq_true, needsDecision_iff, check5_fails_iff, and_comm]
  have last := laneAndConfirmChecks_report laneIds_ascending (configured_ascending s) hcheck5 (sharesBelow_iff s)
  have middle := stationChecks_report s (configured_ascending s) last (by
    rintro k u (⟨rfl, -⟩ | ⟨rfl, -⟩) <;> decide)
  refine ((check1_reports s).orElse middle ?_).congr fun k u => ?_
  · rintro k u k' u' ⟨rfl, -⟩ (⟨n, -, -, hfails⟩ | ⟨rfl, -⟩ | ⟨rfl, -⟩)
    · have := stationFails_check hfails
      omega
    · decide
    · decide
  · simp only [State.startFails, mem_configured, laneIds_mem, true_and]
    refine or_congr_right (or_congr (exists_congr fun n => and_left_comm)
      (or_congr_right (and_congr_right fun _ => exists_congr fun n => ?_)))
    constructor
    · rintro ⟨m, hu, hlt, hn, hm, hshare⟩
      exact ⟨hn, hu, m, hlt, hm, hshare⟩
    · rintro ⟨hn, hu, m, hlt, hm, hshare⟩
      exact ⟨m, hu, hlt, hn, hm, hshare⟩

end Sys2Proof.Machine
end

section
/-! PROOFS. STATION_ENABLE (R92 to R94). -/

namespace Sys2Proof.Machine

theorem exec_stationEnable (s : State) : exec .stationEnable s = complete 0x23 judgeStationEnable s := rfl

theorem judgeStationEnable_outOfRange {s : State} (hp : 15 < s.host.copy[0].toNat ∨ 1 < s.host.copy[1].toNat) :
    judgeStationEnable s = .refuse .badParam s := by
  rcases wholeBelow_pair_outOfRange (m := 16) (n := 2) hp with hstation | ⟨n, hstation, hswitch⟩
  · simp only [judgeStationEnable, hstation]
  · simp only [judgeStationEnable, hstation, hswitch]

theorem judgeStationEnable_setup {s : State} {n : StationId} {on : Fin 2} (ho : s.control.op = .setup)
    (hn : n.val = s.host.copy[0].toNat) (hon : on.val = s.host.copy[1].toNat) :
    judgeStationEnable s = s.enableField n (on == 1) := by
  simp only [judgeStationEnable, wholeBelow_eq_some hn, wholeBelow_eq_some hon, ho]

theorem judgeStationEnable_of_ne_setup {s : State} {n : StationId} {on : Fin 2} (ho : s.control.op ≠ .setup)
    (hn : n.val = s.host.copy[0].toNat) (hon : on.val = s.host.copy[1].toNat) :
    judgeStationEnable s = if on = 1 then s.switchOn n else s.switchOff n := by
  simp only [judgeStationEnable, wholeBelow_eq_some hn, wholeBelow_eq_some hon]
  split
  · contradiction
  · rfl
  · rfl

theorem isOnOf_eq_decide (n : StationId) (e : Entry) : e.isOnOf n = decide (e.kind = .on n) :=
  Bool.eq_iff_iff.2 (isOnOf_iff.trans decide_eq_true_iff.symm)

theorem disableStation_eq (s : State) (n : StationId) :
    s.disableStation n =
      { s with stations := upd s.stations n (fun x => { x with runtime := .disabled, watches := [] })
               list := { s.list with entries := s.list.entries.filter (fun e => e.kind ≠ .on n) } } := by
  have hentries : s.list.entries.filter (fun e => !e.isOnOf n) = s.list.entries.filter (fun e => e.kind ≠ .on n) :=
    List.filter_congr fun e _ => by simp [isOnOf_eq_decide]
  rw [← hentries]
  rfl

theorem switchOff_enabled {s : State} {n : StationId} (h : s.stations[n].runtime = .enabled) :
    s.switchOff n =
      .done (words 1 (BitVec.ofNat 16 (s.list.entries.countP (fun e => e.kind = .on n))) 0 0 0 0)
        { s with stations := upd s.stations n (fun x => { x with runtime := .disabled, watches := [] })
                 list := { s.list with entries := s.list.entries.filter (fun e => e.kind ≠ .on n) } } := by
  have hcount : s.list.entries.countP (Entry.isOnOf n) = s.list.entries.countP (fun e => e.kind = .on n) :=
    congrArg (fun p => s.list.entries.countP p) (funext (isOnOf_eq_decide n))
  rw [State.switchOff, h, disableStation_eq, hcount]

theorem switchOff_failed {s : State} {n : StationId} (h : s.stations[n].runtime = .failed) :
    s.switchOff n = .done (words 2 0 0 0 0 0) (s.updStation n fun x => { x with runtime := .disabled }) := by
  rw [State.switchOff, h]

theorem switchOff_disabled {s : State} {n : StationId} (h : s.stations[n].runtime = .disabled) :
    s.switchOff n = .done noWords s := by
  rw [State.switchOff, h]

theorem switchOn_of_failure {s : State} {n : StationId} {f : CheckFailure} (h : s.enableFailure n = some f) :
    s.switchOn n = .configError f s := by
  rw [State.switchOn, h]

theorem switchOn_of_noFailure {s : State} {n : StationId} (h : s.enableFailure n = none) :
    s.switchOn n = .done (words (BitVec.ofNat 16 s.stations[n].runtime.code) 0 0 0 0 0)
      (s.updStation n fun x => { x with runtime := .enabled, misses := 0 }) := by
  rw [State.switchOn, h]

/-- Settles O48: the enabled field in SETUP, the three runtime states for a switch off, and the first failed check, or
none, for a switch on. -/
theorem stationEnableCommand : Obligations.StationEnableCommand := by
  refine ⟨fun s h => ⟨fun outOfRange => ?_, fun n hn hswitch inSetupState => ?_, fun n hn hoff ho => ?_⟩,
    fun s n h hn hon ho => ?_⟩
  · exact complete_refuse h (judgeStationEnable_outOfRange outOfRange)
  · obtain ⟨on, hval, -⟩ := exists_wholeBelow (Nat.lt_succ_of_le hswitch)
    have honWord : (on == 1) = decide (s.host.copy[1] = 1) := by
      rw [Bool.eq_iff_iff, beq_iff_eq, decide_eq_true_iff, Fin.ext_iff, ← BitVec.toNat_inj, hval]
      rfl
    rw [exec_stationEnable, complete_done h (judgeStationEnable_setup inSetupState hn hval) (updStation_control ..),
      flagBit_zero, honWord]
    rfl
  · have hj : judgeStationEnable s = s.switchOff n :=
      judgeStationEnable_of_ne_setup (on := 0) ho hn (by rw [hoff]; rfl)
    refine ⟨fun enabled => ?_, fun failed => ?_, fun disabled => ?_⟩
    · exact complete_done h (hj.trans (switchOff_enabled enabled)) rfl
    · exact complete_done h (hj.trans (switchOff_failed failed)) rfl
    · exact complete_done h (hj.trans (switchOff_disabled disabled)) rfl
  · have hj : judgeStationEnable s = s.switchOn n :=
      judgeStationEnable_of_ne_setup (on := 1) ho hn (by rw [hon]; rfl)
    have reports := enableFailure_reports s n
    refine ⟨fun check unit first => ?_, fun noFailure => ?_⟩
    · exact complete_answer h (hj.trans (switchOn_of_failure (reports.first check unit first))) rfl
    · rw [exec_stationEnable,
        complete_done h (hj.trans (switchOn_of_noFailure (reports.nothing noFailure))) (updStation_control ..)]
      cases s.stations[n].runtime <;> rfl

end Sys2Proof.Machine
end

section
/-! PROOFS. The masks of one bit per index, and START (R137). -/

namespace Sys2Proof

/-! ### Folds over indices -/

/-- Each index of a list without repetition has its element replaced once. -/
theorem foldl_upd_get {α : Type} {n : Nat} {ids : List (Fin n)} (f : Fin n → α → α) (hnodup : ids.Nodup)
    (v : Vector α n) (j : Fin n) :
    (ids.foldl (fun v i => upd v i (f i)) v)[j] = if j ∈ ids then f j v[j] else v[j] := by
  induction ids generalizing v with
  | nil => rfl
  | cons i rest ih =>
    obtain ⟨hi, hrest⟩ := List.nodup_cons.1 hnodup
    rw [List.foldl_cons, ih hrest]
    by_cases hj : j = i
    · subst hj
      rw [if_neg hi, if_pos (List.mem_cons_self ..), upd_get_same]
    · simp only [List.mem_cons, hj, false_or, upd_get_other hj]

theorem getLsbD_foldl_flagBit {m : Nat} (ids : List (Fin m)) (p : Fin m → Bool) (w : Word) (k : Nat) :
    (ids.foldl (fun w i => w ||| flagBit i.val (p i)) w).getLsbD k
      = (w.getLsbD k || ids.any (fun i => (flagBit i.val (p i)).getLsbD k)) := by
  induction ids generalizing w with
  | nil => simp
  | cons i rest ih => rw [List.foldl_cons, ih, BitVec.getLsbD_or, List.any_cons, Bool.or_assoc]

/-- In a mask of one bit per index, the bit of an index is the truth value it stands for. -/
theorem getLsbD_mask {m : Nat} {ids : List (Fin m)} (hm : m ≤ 16) (p : Fin m → Bool) {j : Fin m} (hj : j ∈ ids) :
    (ids.foldl (fun w i => w ||| flagBit i.val (p i)) 0#16).getLsbD j.val = p j := by
  have hj16 : j.val < 16 := by omega
  rw [getLsbD_foldl_flagBit, BitVec.getLsbD_zero, Bool.false_or, Bool.eq_iff_iff, List.any_eq_true]
  simp only [getLsbD_flagBit, Bool.and_eq_true, decide_eq_true_eq, ← Fin.ext_iff]
  constructor
  · rintro ⟨i, -, ⟨hp, -⟩, rfl⟩
    exact hp
  · intro hp
    exact ⟨j, hj, ⟨hp, hj16⟩, rfl⟩

/-- A mask of one bit per index below `m` is below 2 to the `m`. -/
theorem mask_toNat_lt {m : Nat} (ids : List (Fin m)) (p : Fin m → Bool) :
    (ids.foldl (fun w i => w ||| flagBit i.val (p i)) 0#16).toNat < 2 ^ m := by
  refine Nat.lt_pow_two_of_testBit _ fun k hk => ?_
  rw [BitVec.testBit_toNat, getLsbD_foldl_flagBit, BitVec.getLsbD_zero, Bool.false_or, List.any_eq_false]
  intro i _
  have hne : ¬ i.val = k := by omega
  simp only [getLsbD_flagBit, hne, decide_false, Bool.and_false, Bool.false_eq_true, not_false_eq_true]

theorem getLsbD_stationMask (p : StationId → Bool) (n : StationId) :
    (maskOf stationIds p).getLsbD n.val = p n := getLsbD_mask (by decide) p (stationIds_mem n)

namespace Machine

theorem getLsbD_laneMask (p : LaneId → Bool) (l : LaneId) : (laneMask p).getLsbD l.val = p l :=
  getLsbD_mask (by decide) p (laneIds_mem l)

theorem laneMask_toNat_lt (p : LaneId → Bool) : (laneMask p).toNat < 16 := mask_toNat_lt laneIds p

/-! ### The entry into TRACKING (steps 1 to 6 of R137) -/

/-- Each lane takes up the first sample of its own input (R18). -/
theorem beginTracking_lane (s : State) (l : LaneId) :
    s.beginTracking.lanes[l] = Lane.started (s.inputActive l) s.lanes[l] := by
  have hfold := foldl_upd_get (fun i => Lane.started (s.inputActive i)) (by decide : laneIds.Nodup) s.lanes l
  rwa [if_pos (laneIds_mem l)] at hfold

theorem beginTracking_station (s : State) (n : StationId) :
    s.beginTracking.stations[n] = Station.started s.stations[n] := mapAll_get ..

theorem started_isEnabled (st : Station) : (st.started.runtime == .enabled) = st.config.enabled := by
  cases h : st.config.enabled <;> simp [Station.started, h]

theorem started_isWaitClear (active : Bool) (x : Lane) :
    ((Lane.started active x).detector == .waitClear) = (x.config.enabled && active) := by
  cases h : x.config.enabled <;> cases active <;> simp [Lane.started, h]

/-- The result words of START: the stations in ENABLED and the lanes in WAIT_CLEAR. -/
def State.startWords (s : State) : Vector Word 6 :=
  words (maskOf stationIds fun n => s.beginTracking.stations[n].runtime == .enabled)
    (laneMask fun l => s.beginTracking.lanes[l].detector == .waitClear) 0 0 0 0

theorem startWords_get_zero (s : State) :
    s.startWords[0] = maskOf stationIds fun n => s.beginTracking.stations[n].runtime == .enabled := rfl

theorem startWords_get_one (s : State) :
    s.startWords[1] = laneMask fun l => s.beginTracking.lanes[l].detector == .waitClear := rfl

theorem startWords_stations (s : State) (n : StationId) :
    s.startWords[0].getLsbD n.val = s.stations[n].config.enabled := by
  rw [startWords_get_zero, getLsbD_stationMask, beginTracking_station, started_isEnabled]

theorem startWords_lanes (s : State) (l : LaneId) :
    s.startWords[1].getLsbD l.val = (s.lanes[l].config.enabled && s.inputActive l) := by
  rw [startWords_get_one, getLsbD_laneMask, beginTracking_lane, started_isWaitClear]

theorem startWords_lanes_lt (s : State) : s.startWords[1].toNat < 16 := by
  rw [startWords_get_one]
  exact laneMask_toNat_lt _

/-! ### START judged (R105, R106, R137) -/

theorem exec_start (s : State) : exec .start s = complete 0x10 judgeStart s := rfl

theorem judgeStart_hld {s : State} (ho : s.control.op = .setup) (hhld : s.control.hldAsserted = true) :
    judgeStart s = .refuse .haltActive s := by
  rw [judgeStart, inSetup_setup _ ho, if_pos hhld]

theorem judgeStart_of_failure {s : State} {f : CheckFailure} (ho : s.control.op = .setup)
    (hhld : s.control.hldAsserted = false) (hf : s.startFailure = some f) : judgeStart s = .configError f s := by
  rw [judgeStart, inSetup_setup _ ho, if_neg (by simp [hhld]), hf]

theorem judgeStart_of_noFailure {s : State} (ho : s.control.op = .setup) (hhld : s.control.hldAsserted = false)
    (hf : s.startFailure = none) : judgeStart s = .done s.startWords s.beginTracking := by
  rw [judgeStart, inSetup_setup _ ho, if_neg (by simp [hhld]), hf]
  rfl

theorem exec_start_of_noFailure {s : State} (h : s.Awaits 0x10) (ho : s.control.op = .setup)
    (hhld : s.control.hldAsserted = false) (noFailure : ∀ check unit, ¬ s.startFails check unit) :
    exec .start s = .next (s.beginTracking.completed .done s.startWords) := by
  have hj := judgeStart_of_noFailure ho hhld ((startFailure_reports s).nothing noFailure)
  rw [exec_start, complete_quiet _ h (by rw [hj]; exact awaits_requests h), hj, finish_eq]
  rfl

/-- Settles O40: HLD before any check, the first failed check, and else the entry into TRACKING, lane by lane and
station by station. -/
theorem startCommand : Obligations.StartCommand := by
  refine ⟨fun s h outsideSetup => complete_inSetup_badState _ h outsideSetup,
    fun s h ho => ⟨fun hhld => ?_, fun check unit hhld first => ?_⟩, fun s h ho hhld noFailure => ?_⟩
  · exact complete_refuse h (judgeStart_hld ho hhld)
  · exact complete_answer h (judgeStart_of_failure ho hhld ((startFailure_reports s).first check unit first)) rfl
  · exact ⟨s.beginTracking, s.startWords, exec_start_of_noFailure h ho hhld noFailure, rfl, rfl, rfl,
      beginTracking_lane s, beginTracking_station s, fun o => mapAll_get .., rfl, startWords_stations s,
      startWords_lanes s, startWords_lanes_lt s, rfl, rfl, rfl, rfl⟩

end Machine

end Sys2Proof
end

section
/-! PROOFS. The commands of an output line, SET_OUTPUT (R108) and FORCE_OUTPUT (R118). -/

namespace Sys2Proof.Machine

/-! ### The words of a line -/

theorem faultAction_code_eq (a : FaultAction) : a.code = if a = .hold then 1 else 0 := by cases a <;> rfl

theorem eq_one_iff_of_val {i : Fin 2} {w : Word} (h : i.val = w.toNat) : i = 1 ↔ w = 1 := by
  rw [Fin.ext_iff, ← BitVec.toNat_inj, h]
  rfl

theorem forcedOf_eq_of_val {action : Fin 3} {w : Word} (h : action.val = w.toNat) :
    forcedOf action = if w = 0 then .none else if w = 1 then .inactive else .active := by
  obtain rfl : BitVec.ofNat 16 action.val = w := by rw [h, BitVec.ofNat_toNat, BitVec.setWidth_eq]
  match action with
  | 0 => rfl
  | 1 => rfl
  | 2 => rfl

theorem getLsbD_stationMask_beq {α : Type} [DecidableEq α] (f : StationId → α) (a : α) (n : StationId) :
    (maskOf stationIds fun m => f m == a).getLsbD n.val = decide (f n = a) := by
  rw [getLsbD_stationMask, beq_eq_decide]

/-! ### SET_OUTPUT (R108) -/

theorem exec_setOutput (s : State) : exec .setOutput s = complete 0x07 judgeSetOutput s := rfl

/-- What SET_OUTPUT puts into a line: the polarity and the fault action that its words say. -/
def OutputLine.withSettings (p : Vector Word 8) (x : OutputLine) : OutputLine :=
  { x with activeLow := decide (p[1] = 1), fault := if p[2] = 1 then .hold else .off }

/-- The result words of SET_OUTPUT: the line as it was. -/
def State.lineWords (s : State) (o : OutputId) : Vector Word 6 :=
  words (flagBit 0 s.outputs[o].activeLow) s.outputs[o].fault.code s.outputs[o].forced.code
    (flagBit 0 (s.lineActive o)) 0 0

theorem lineWords_eq (s : State) (o : OutputId) :
    s.lineWords o =
      #v[if s.outputs[o].activeLow then 1 else 0, if s.outputs[o].fault = .hold then 1 else 0,
         s.outputs[o].forced.code, if s.lineActive o then 1 else 0, 0, 0] := by
  rw [State.lineWords, flagBit_zero, flagBit_zero, faultAction_code_eq]
  rfl

theorem judgeSetOutput_outOfRange {s : State} (ho : s.control.op = .setup)
    (hp : 15 < s.host.copy[0].toNat ∨ 1 < s.host.copy[1].toNat ∨ 1 < s.host.copy[2].toNat) :
    judgeSetOutput s = .refuse .badParam s := by
  rw [judgeSetOutput, inSetup_setup _ ho]
  by_cases hpair : 16 ≤ s.host.copy[0].toNat ∨ 2 ≤ s.host.copy[1].toNat
  · rcases wholeBelow_pair_outOfRange hpair with hline | ⟨o, hline, hpolarity⟩
    · rw [hline]
    · rw [hline, hpolarity]
  · obtain ⟨hlineLt, hpolarityLt⟩ := not_or.1 hpair
    obtain ⟨o, -, hline⟩ := exists_wholeBelow (not_le.1 hlineLt)
    obtain ⟨polarity, -, hpolarity⟩ := exists_wholeBelow (not_le.1 hpolarityLt)
    rw [hline, hpolarity, wholeBelow_eq_none (w := s.host.copy[2]) (by omega)]

theorem judgeSetOutput_of_inRange {s : State} {o : OutputId} (ho : s.control.op = .setup)
    (hline : o.val = s.host.copy[0].toNat) (hpolarityLe : s.host.copy[1].toNat ≤ 1)
    (hfaultLe : s.host.copy[2].toNat ≤ 1) :
    judgeSetOutput s = .done (s.lineWords o) (s.updOutput o (OutputLine.withSettings s.host.copy)) := by
  obtain ⟨polarity, hpolarityVal, hpolarity⟩ := exists_wholeBelow (Nat.lt_succ_of_le hpolarityLe)
  obtain ⟨fault, hfaultVal, hfault⟩ := exists_wholeBelow (Nat.lt_succ_of_le hfaultLe)
  rw [judgeSetOutput, inSetup_setup _ ho, wholeBelow_eq_some hline, hpolarity, hfault]
  simp only [beq_eq_decide, eq_one_iff_of_val hpolarityVal, eq_one_iff_of_val hfaultVal]
  rfl

/-! ### FORCE_OUTPUT (R118) -/

theorem exec_forceOutput (s : State) : exec .forceOutput s = complete 0x08 judgeForceOutput s := rfl

/-- The result words of FORCE_OUTPUT: the code of the line's forced state before, and the three masks of the lines as
they stand after, in `t`. -/
def State.forcedWords (t : State) (before : Forced) : Vector Word 6 :=
  words before.code (maskOf stationIds fun n => t.outputs[n].forced == .active)
    (maskOf stationIds fun n => t.outputs[n].forced == .inactive) (maskOf stationIds t.lineActive) 0 0

theorem forcedWords_active (t : State) (before : Forced) (n : OutputId) :
    (t.forcedWords before)[1].getLsbD n.val = decide (t.outputs[n].forced = .active) :=
  getLsbD_stationMask_beq (fun m => t.outputs[m].forced) .active n

theorem forcedWords_inactive (t : State) (before : Forced) (n : OutputId) :
    (t.forcedWords before)[2].getLsbD n.val = decide (t.outputs[n].forced = .inactive) :=
  getLsbD_stationMask_beq (fun m => t.outputs[m].forced) .inactive n

theorem forcedWords_lineActive (t : State) (before : Forced) (n : OutputId) :
    (t.forcedWords before)[3].getLsbD n.val = t.lineActive n :=
  getLsbD_stationMask t.lineActive n

theorem judgeForceOutput_outOfRange {s : State} (ho : s.control.op = .setup)
    (hp : 15 < s.host.copy[0].toNat ∨ 2 < s.host.copy[1].toNat) : judgeForceOutput s = .refuse .badParam s := by
  rw [judgeForceOutput, inSetup_setup _ ho]
  rcases wholeBelow_pair_outOfRange (m := 16) (n := 3) hp with hline | ⟨o, hline, haction⟩
  · rw [hline]
  · rw [hline, haction]

theorem judgeForceOutput_of_inRange {s : State} {o : OutputId} {action : Fin 3} (ho : s.control.op = .setup)
    (hline : o.val = s.host.copy[0].toNat) (haction : action.val = s.host.copy[1].toNat) :
    judgeForceOutput s =
      .done ((s.updOutput o fun x => { x with forced := forcedOf action }).forcedWords s.outputs[o].forced)
        (s.updOutput o fun x => { x with forced := forcedOf action }) := by
  rw [judgeForceOutput, inSetup_setup _ ho, wholeBelow_eq_some hline, wholeBelow_eq_some haction]
  rfl

/-- Settles O38: the judgement of each command's words, in range or not; the words of a line before, and bit by bit the
masks of the lines after a force. -/
theorem outputCommands : Obligations.OutputCommands := by
  refine ⟨fun s h => ⟨fun outsideSetup => ?_, fun inSetupState outOfRange => ?_,
      fun o inSetupState hline hpolarity hfault => ?_⟩,
    fun s h => ⟨fun outsideSetup => ?_, fun inSetupState outOfRange => ?_,
      fun o inSetupState hline hle => ?_⟩⟩
  · exact complete_inSetup_badState _ h outsideSetup
  · exact complete_refuse h (judgeSetOutput_outOfRange inSetupState outOfRange)
  · rw [exec_setOutput, complete_done h (judgeSetOutput_of_inRange inSetupState hline hpolarity hfault)
      (updOutput_control ..), lineWords_eq]
    rfl
  · exact complete_inSetup_badState _ h outsideSetup
  · exact complete_refuse h (judgeForceOutput_outOfRange inSetupState outOfRange)
  · obtain ⟨action, haction, -⟩ := exists_wholeBelow (Nat.lt_succ_of_le hle)
    have hj := judgeForceOutput_of_inRange inSetupState hline haction
    rw [forcedOf_eq_of_val haction] at hj
    exact ⟨_, complete_done h hj (updOutput_control ..), rfl, forcedWords_active _ _, forcedWords_inactive _ _,
      forcedWords_lineActive _ _, rfl, rfl⟩

end Sys2Proof.Machine
end

section
/-! PROOFS. CONFIRM_EDGE: the owner of a confirm input, and the answered watch or the stray (R122, R123, R126, R127). -/

namespace Sys2Proof.Machine

/-! ### The owner of a confirm input (R123) -/

theorem owns_iff (s : State) (input : InputId) (n : StationId) :
    s.owns input n = true ↔ s.stations[n].runtime = .enabled ∧ s.stations[n].config.confirm = some input := by
  rw [State.owns, Bool.and_eq_true, beq_iff_eq, beq_iff_eq]

theorem owner_eq_none {s : State} {input : InputId}
    (unowned : ∀ n : StationId, s.stations[n].runtime ≠ .enabled ∨ s.stations[n].config.confirm ≠ some input) :
    s.owner input = none := by
  refine List.find?_eq_none.2 fun n _ => ?_
  rw [owns_iff, not_and_or]
  exact unowned n

/-- The search for an owner finds the one station that owns the input. -/
theorem owner_eq_some {s : State} {input : InputId} {n : StationId}
    (owned : ∀ m : StationId, s.stations[m].runtime = .enabled ∧ s.stations[m].config.confirm = some input ↔ m = n) :
    s.owner input = some n := by
  have hn : s.owns input n = true := (owns_iff s input n).2 ((owned n).2 rfl)
  cases h : s.owner input with
  | none => exact absurd hn (List.find?_eq_none.1 h n (stationIds_mem n))
  | some m => rw [(owned m).1 ((owns_iff s input m).1 (List.find?_some h))]

/-! ### The edge of a confirm input (R126, R127) -/

/-- On one element, an update is what its function makes of that element. -/
theorem upd_congr {α : Type} {k : Nat} {v : Vector α k} {i : Fin k} {f g : α → α} (h : f v[i] = g v[i]) :
    upd v i f = upd v i g := congrArg (v.set i) h

/-- The head watch is answered (R126). -/
theorem takeConfirm_of_watch {s : State} {n : StationId} {w : Watch} {rest : List Watch}
    (h : s.stations[n].watches = w :: rest) :
    s.takeConfirm n = s.updStation n fun st => { st with watches := rest, misses := 0 } := by
  refine congrArg (fun stations => { s with stations }) (upd_congr ?_)
  rw [h]

/-- A confirm edge that finds no watch is a stray (R127). -/
theorem takeConfirm_of_noWatch {s : State} {n : StationId} (h : s.stations[n].watches = []) :
    s.takeConfirm n = s.updStation n fun st => { st with strays := st.strays + 1 } := by
  refine congrArg (fun stations => { s with stations }) (upd_congr ?_)
  rw [h]

theorem confirmsOn_iff (st : Station) (rising : Bool) : st.confirmsOn rising = true ↔ st.config.falling = !rising := by
  rw [Station.confirmsOn, bne_iff_ne, ne_eq, Bool.eq_not]

theorem takeEdge_of_unowned {s : State} {input : InputId} (rising : Bool) (h : s.owner input = none) :
    s.takeEdge input rising = s := by
  rw [State.takeEdge, h]

theorem takeEdge_of_confirmEdge {s : State} {input : InputId} {rising : Bool} {n : StationId}
    (h : s.owner input = some n) (hedge : s.stations[n].config.falling = !rising) :
    s.takeEdge input rising = s.takeConfirm n := by
  simp only [State.takeEdge, h, if_pos ((confirmsOn_iff _ _).2 hedge)]

/-- An edge of the other kind is no confirm edge of the owner (R123). -/
theorem takeEdge_of_otherEdge {s : State} {input : InputId} {rising : Bool} {n : StationId}
    (h : s.owner input = some n) (hedge : s.stations[n].config.falling = rising) :
    s.takeEdge input rising = s := by
  have hother : ¬ s.stations[n].confirmsOn rising = true := by
    rw [confirmsOn_iff, hedge, Bool.eq_not_self]
    exact not_false
  simp only [State.takeEdge, h, if_neg hother]

theorem takeEdge_control (s : State) (input : InputId) (rising : Bool) :
    (s.takeEdge input rising).control = s.control := by
  unfold State.takeEdge
  split
  · rfl
  · split
    · exact takeConfirm_control ..
    · rfl

/-! ### CONFIRM_EDGE -/

/-- In a part that runs with no request on its way, a pin event is taken at the new level of the pin, and the requests
it raises arrive. -/
theorem atPin_quiet {s : State} (pin event : State → State) (h : s.Quiet) :
    s.atPin pin event = .next (event (pin s)).arriveHalts := by
  obtain ⟨hrun, -⟩ := id h
  rw [State.atPin, amid_quiet h, if_pos hrun]

/-- The state in which an edge is taken: the pin and the sample reference at the new level (R122). -/
def State.atCfmEdge (s : State) (input : InputId) (rising : Bool) : State :=
  (s.setCfm input rising).sampleCfm input rising

theorem owner_atCfmEdge (s : State) (input : InputId) (rising : Bool) :
    (s.atCfmEdge input rising).owner input = s.owner input := rfl

/-- A change of level against the sample reference is an edge, and taking it raises no halt request. -/
theorem exec_confirmEdge_of_edge {s : State} {input : InputId} {rising : Bool} (h : s.Quiet)
    (href : s.cfmRef[input] = !rising) :
    exec (.confirmEdge input rising) s = .next ((s.atCfmEdge input rising).takeEdge input rising) := by
  have hchange : ¬ s.cfmRef[input] = rising := by
    rw [href, Bool.not_eq_self]
    exact not_false
  obtain ⟨-, hquiet⟩ := id h
  have hnone : ((s.atCfmEdge input rising).takeEdge input rising).control.requests = [] := by
    rw [takeEdge_control]
    exact hquiet
  change execConfirmEdge input rising s = _
  rw [execConfirmEdge, atPin_quiet _ _ h, if_neg hchange]
  exact congrArg Host.Outcome.next (arriveHalts_none hnone)

theorem exec_confirmEdge_of_unowned {s : State} {input : InputId} {rising : Bool} (h : s.Quiet)
    (href : s.cfmRef[input] = !rising) (unowned : s.owner input = none) :
    exec (.confirmEdge input rising) s = .next (s.atCfmEdge input rising) := by
  rw [exec_confirmEdge_of_edge h href, takeEdge_of_unowned rising ((owner_atCfmEdge ..).trans unowned)]

theorem exec_confirmEdge_of_otherEdge {s : State} {input : InputId} {rising : Bool} {n : StationId} (h : s.Quiet)
    (href : s.cfmRef[input] = !rising) (owned : s.owner input = some n)
    (hedge : s.stations[n].config.falling = rising) :
    exec (.confirmEdge input rising) s = .next (s.atCfmEdge input rising) := by
  rw [exec_confirmEdge_of_edge h href, takeEdge_of_otherEdge ((owner_atCfmEdge ..).trans owned) hedge]

theorem exec_confirmEdge_of_watch {s : State} {input : InputId} {rising : Bool} {n : StationId} {w : Watch}
    {rest : List Watch} (h : s.Quiet) (href : s.cfmRef[input] = !rising) (owned : s.owner input = some n)
    (hedge : s.stations[n].config.falling = !rising) (hw : s.stations[n].watches = w :: rest) :
    exec (.confirmEdge input rising) s = .next
      ((s.atCfmEdge input rising).updStation n fun st => { st with watches := rest, misses := 0 }) := by
  rw [exec_confirmEdge_of_edge h href, takeEdge_of_confirmEdge ((owner_atCfmEdge ..).trans owned) hedge,
    takeConfirm_of_watch (s := s.atCfmEdge input rising) hw]

theorem exec_confirmEdge_of_noWatch {s : State} {input : InputId} {rising : Bool} {n : StationId} (h : s.Quiet)
    (href : s.cfmRef[input] = !rising) (owned : s.owner input = some n)
    (hedge : s.stations[n].config.falling = !rising) (hw : s.stations[n].watches = []) :
    exec (.confirmEdge input rising) s = .next
      ((s.atCfmEdge input rising).updStation n fun st => { st with strays := st.strays + 1 }) := by
  rw [exec_confirmEdge_of_edge h href, takeEdge_of_confirmEdge ((owner_atCfmEdge ..).trans owned) hedge,
    takeConfirm_of_noWatch (s := s.atCfmEdge input rising) hw]

/-- Settles O20: an edge against the sample reference is taken by the owner of its input, if there is one and the edge is
of its kind, and answers the head watch or counts a stray. -/
theorem confirmEdges : Obligations.ConfirmEdges := by
  refine ⟨fun s input n w rest h owned href hwatches => ?_,
    fun s input rising h href => ⟨fun unowned => ?_, fun n owned => ⟨fun otherKind => ?_, fun itsKind noWatch => ?_⟩⟩⟩
  · exact exec_confirmEdge_of_watch h (by rw [href, Bool.not_not]) (owner_eq_some owned) (Bool.not_not _).symm hwatches
  · exact exec_confirmEdge_of_unowned h href (owner_eq_none unowned)
  · exact exec_confirmEdge_of_otherEdge h href (owner_eq_some owned) otherKind
  · exact exec_confirmEdge_of_noWatch h href (owner_eq_some owned) itsKind noWatch

end Sys2Proof.Machine
end

section
/-! PROOFS. The commands of the operating state: HALT (R139), STOP (R138) and REINIT (R148). -/

namespace Sys2Proof.Machine

/-- An owner that answers DONE with no request on its way completes the command, whatever else it does to operating
control. -/
theorem complete_done_of_noRequests {s t : State} {code : BitVec 8} {judge : State → Answer} {r : Vector Word 6}
    (h : s.Awaits code) (hj : judge s = .done r t) (ht : t.control.requests = []) :
    complete code judge s = .next (t.completed .done r) := by
  rw [complete_quiet _ h (by rw [hj]; exact ht), hj, finish_eq]
  rfl

/-! ### HALT (R139) -/

theorem judgeHalt_tracking {s : State} (ho : s.control.op = .tracking) :
    judgeHalt s = .done noWords (s.takeHalt .host) := by
  rw [judgeHalt, ho]

theorem judgeHalt_of_ne_tracking {s : State} (ho : s.control.op ≠ .tracking) :
    judgeHalt s = .refuse .badState s := by
  unfold judgeHalt
  split
  · rfl
  · contradiction
  · rfl

/-- Settles O42: operating control takes the halt within the completion, and no request is left on its way. -/
theorem haltCommandHalts : Obligations.HaltCommandHalts := by
  refine fun s h => ⟨fun tracking => ?_, fun notTracking => ?_⟩
  · have hr : (s.takeHalt .host).control.requests = [] := (takeHalt_requests s .host).trans (awaits_requests h)
    exact complete_done_of_noRequests h (judgeHalt_tracking tracking) hr
  · exact complete_refuse h (judgeHalt_of_ne_tracking notTracking)

/-! ### STOP (R138) -/

/-- The result words of STOP: the operating state left, and the items and entries dropped. -/
def State.stopWords (s : State) : Vector Word 6 :=
  words (if s.control.op = .tracking then 1 else 2) (BitVec.ofNat 16 s.queue.items.length)
    (BitVec.ofNat 16 s.list.entries.length) 0 0 0

theorem judgeStop_setup {s : State} (ho : s.control.op = .setup) : judgeStop s = .refuse .badState s := by
  rw [judgeStop, ho]

theorem judgeStop_of_ne_setup {s : State} (ho : s.control.op ≠ .setup) :
    judgeStop s = .done s.stopWords s.returnToSetup := by
  cases hop : s.control.op with
  | setup => contradiction
  | tracking => simp [judgeStop, State.stopWords, hop, OpState.code]
  | halted => simp [judgeStop, State.stopWords, hop, OpState.code]

/-- Settles O41: in SETUP a refusal, and elsewhere the return to SETUP with nothing else done. -/
theorem stopReturnsToSetup : Obligations.StopReturnsToSetup := by
  refine fun s h => ⟨fun inSetupState => ?_, fun outsideSetup => ?_⟩
  · exact complete_refuse h (judgeStop_setup inSetupState)
  · have hr : s.returnToSetup.control.requests = [] := awaits_requests h
    exact complete_done_of_noRequests h (judgeStop_of_ne_setup outsideSetup) hr

/-! ### REINIT (R148) -/

/-- The result words of REINIT: the operating state left. -/
def State.reinitWords (s : State) : Vector Word 6 := words s.control.op.code 0 0 0 0 0

theorem exec_reinit {s : State} (h : s.Awaits 0x2F) :
    exec .reinit s = .next (s.returnToSetup.clearRun.completed .done s.reinitWords) :=
  complete_done_of_noRequests h (judge := judgeReinit) rfl (awaits_requests h)

/-- The register window after REINIT: the result, and CMD the only status bit, all else kept (R163). -/
theorem reinit_host (s : State) :
    (s.returnToSetup.clearRun.completed .done s.reinitWords).host =
      { s.host with busy := false, resultCode := .done, results := s.reinitWords, intStatus := 1 } := by
  simp [State.completed, State.clearRun]

/-- A lane after REINIT: its configuration, and nothing held or counted (R18, R148). -/
theorem reinit_lane (s : State) (l : LaneId) :
    s.returnToSetup.clearRun.lanes[l] =
      { s.lanes[l] with detector := .off, previous := none, counters := .zero } := by
  simp [State.clearRun, State.returnToSetup, Lane.stopped]

/-- A station after REINIT: its configuration alone (R91, R133, R148). -/
theorem reinit_station (s : State) (n : StationId) :
    s.returnToSetup.clearRun.stations[n] =
      { config := s.stations[n].config, runtime := .disabled, pulse := none, misses := 0, strays := 0,
        watches := [] } := by
  simp [State.clearRun, State.returnToSetup, Station.stopped]

theorem returnToSetup_output (s : State) (o : OutputId) :
    s.returnToSetup.outputs[o] = { s.outputs[o] with forced := .none, held := none } := mapAll_get ..

/-- In SETUP a line that is not forced is inactive (R112). -/
theorem lineActive_unforced {s : State} {o : OutputId} (ho : s.control.op = .setup)
    (hf : s.outputs[o].forced = .none) : s.lineActive o = false := by
  rw [State.lineActive, ho]
  simp only [hf]
  rfl

/-- Settles O50: the return to SETUP and then the clearing of the run, part by part; the lines are inactive because a
return to SETUP leaves none forced. -/
theorem reinitClearsTheRun : Obligations.ReinitClearsTheRun := by
  intro s h
  refine ⟨_, exec_reinit h, rfl, rfl, rfl, rfl, fun l => ?lane, fun n => reinit_station s n, fun o => ?line, rfl,
    ?host, rfl⟩
  case lane =>
    rw [completed_lanes, reinit_lane]
    exact ⟨rfl, rfl, rfl, rfl⟩
  case line =>
    have ho := returnToSetup_output s o
    exact ⟨ho, lineActive_unforced rfl (congrArg OutputLine.forced ho)⟩
  case host =>
    rw [reinit_host, State.reinitWords]
    cases s.control.op <;> rfl

end Sys2Proof.Machine
end

section
/-! PROOFS. Writes to CMD (R171, R173), and the frame of CMD_OVERRUN and the parameter copy: no block but the command
interface holds them, and it moves them at a CMD write alone. -/

namespace Sys2Proof.Machine

/-! ### The words of an accepted command -/

theorem cmdWord_of_busy {s : State} (h : s.host.busy = true) :
    s.cmdWord = 0x8000 + s.host.lastCode.zeroExtend 16 := by
  have hdisjoint : BitVec.twoPow 16 15 &&& s.host.lastCode.zeroExtend 16 = 0#16 := by
    rw [BitVec.twoPow_and]
    simp
  rw [State.cmdWord, h]
  exact (BitVec.add_eq_or_of_and_eq_zero _ _ hdisjoint).symm

theorem opState_code_bit_outside (o : OpState) {k : Nat} (hk : 2 ≤ k) : o.code.getLsbD k = false := by
  have hlt : o.code.toNat < 2 ^ k := lt_of_lt_of_le (by cases o <;> decide) (Nat.pow_le_pow_right (by decide) hk)
  exact Nat.testBit_lt_two_pow hlt

theorem statusWord_busy (s : State) : s.statusWord.getLsbD 2 = s.host.busy := by
  simp [State.statusWord, getLsbD_flagBit, getLsbD_fieldAt, opState_code_bit_outside, -BitVec.getLsbD_eq_getElem]

theorem statusWord_overrun (s : State) : s.statusWord.getLsbD 3 = s.host.overrun := by
  simp [State.statusWord, getLsbD_flagBit, getLsbD_fieldAt, opState_code_bit_outside, -BitVec.getLsbD_eq_getElem]

/-! ### A write to CMD in a part that runs -/

/-- With no request on its way, a write that raises none has its effect and nothing more happens. -/
theorem writeCycle_quiet {s : State} {effect : State → State} (h : s.Quiet)
    (hr : (effect s).control.requests = s.control.requests) : s.writeCycle effect = effect s := by
  obtain ⟨hrun, hquiet⟩ := id h
  rw [State.writeCycle, amid_quiet h, if_pos hrun, arriveHalts_none (hr.trans hquiet)]

theorem writeCmd_control (s : State) (value : Word) : (s.writeCmd value).control = s.control := by
  unfold State.writeCmd
  split
  · rfl
  · exact acceptCommand_control ..

theorem exec_cmdWrite {s : State} (value : Word) (h : s.Quiet) :
    exec (.cmdWrite value) s = .next (s.writeCmd value) :=
  congrArg Host.Outcome.next (writeCycle_quiet h (congrArg Control.requests (writeCmd_control s value)))

theorem writeCmd_ready {s : State} (value : Word) (h : s.host.busy = false) :
    s.writeCmd value = s.acceptCommand value := by
  simp [State.writeCmd, h]

theorem writeCmd_busy {s : State} (value : Word) (h : s.host.busy = true) :
    s.writeCmd value = { s with host := { s.host with overrun := true } } := by
  simp [State.writeCmd, h]

/-- While BUSY the register CMD reads as the code with bit 15 (R171). -/
theorem registerRead_cmd {s : State} (hrun : s.running = true) (h : s.host.busy = true) :
    s.registerRead 5 = 0x8000 + s.host.lastCode.zeroExtend 16 := by
  rw [← cmdWord_of_busy h]
  exact if_pos hrun

/-! ### What moves CMD_OVERRUN and the parameter copy

Each operation of the blocks leaves both as they are; where an operation leaves the whole register window as it is, its
`host` law says so, and the lemmas here are for the operations that may set bits of INT_STATUS. -/

/-- What only a CMD write or a reset moves: CMD_OVERRUN and the parameter copy. -/
def HostInterface.acceptance (h : HostInterface) : Bool × Vector Word 8 := (h.overrun, h.copy)

section
variable (s : State)

@[simp] theorem raiseInt_acceptance (bits : BitVec 4) : (s.raiseInt bits).host.acceptance = s.host.acceptance := rfl

@[simp] theorem arrive_acceptance (r : EventRecord) : (s.arrive r).host.acceptance = s.host.acceptance := by
  rw [arrive_eq]
  rfl

@[simp] theorem report_acceptance (kind : EventKind) (unit : BitVec 4) (tag : Tag) (auxA auxB : Word) :
    (s.report kind unit tag auxA auxB).host.acceptance = s.host.acceptance := arrive_acceptance ..

@[simp] theorem countChoice_host {α : Type} (candidates : List α) : (s.countChoice candidates).host = s.host := by
  unfold State.countChoice
  split <;> rfl

/-! #### Halt requests -/

@[simp] theorem haltEntry_acceptance (c : Cause) : (s.haltEntry c).host.acceptance = s.host.acceptance := by
  simp [State.haltEntry]

@[simp] theorem takeHalt_acceptance (c : Cause) : (s.takeHalt c).host.acceptance = s.host.acceptance := by
  unfold State.takeHalt
  split
  · rfl
  · exact haltEntry_acceptance ..
  · rfl

@[simp] theorem settleHalts_acceptance : s.settleHalts.host.acceptance = s.host.acceptance :=
  settleHalts_induction (P := fun t => t.host.acceptance = s.host.acceptance) (fun _ _ h => h)
    (fun t xs h => by rw [countChoice_host, h]) (fun t c h => (takeHalt_acceptance t c).trans h) rfl

theorem amid_acceptance {effect : State → State}
    (h : ∀ t, (effect t).host.acceptance = t.host.acceptance) :
    (s.amid effect).host.acceptance = s.host.acceptance := by
  refine amid_induction (P := fun t => t.host.acceptance = s.host.acceptance) (fun _ _ h => h)
    (fun t xs h => by rw [countChoice_host, h]) (fun t c h => (takeHalt_acceptance t c).trans h) ?_
  rintro t (rfl | rfl) <;> exact h _

/-! #### The tracking queue -/

theorem foldl_place_host (entries : List Entry) : (entries.foldl State.place s).host = s.host := by
  induction entries generalizing s with
  | nil => rfl
  | cons e rest ih => exact ih (s.place e)

@[simp] theorem admitItem_acceptance (l : LaneId) (leading : Pos) (tag : Tag) :
    (s.admitItem l leading tag).host.acceptance = s.host.acceptance := by
  simp [State.admitItem, foldl_place_host]

@[simp] theorem applySizePolicy_host (l : LaneId) (tag : Tag) (reason : BitVec 8) :
    (s.applySizePolicy l tag reason).host = s.host := by
  unfold State.applySizePolicy
  split
  · rfl
  · rfl
  · split <;> simp

@[simp] theorem closeVerdict_acceptance (i : Item) : (s.closeVerdict i).host.acceptance = s.host.acceptance := by
  unfold State.closeVerdict
  split <;> simp

@[simp] theorem fireDeadline_acceptance (tag : Tag) : (s.fireDeadline tag).host.acceptance = s.host.acceptance := by
  unfold State.fireDeadline
  split
  · rfl
  · split <;> simp

@[simp] theorem unlink_host (l : LaneId) (tag : Tag) : (s.unlink l tag).host = s.host := by
  unfold State.unlink
  split <;> rfl

@[simp] theorem noteNoTrailing_host (i : Item) : (s.noteNoTrailing i).host = s.host := by
  unfold State.noteNoTrailing
  split <;> simp

@[simp] theorem reportRetired_acceptance (i : Item) : (s.reportRetired i).host.acceptance = s.host.acceptance :=
  arrive_acceptance ..

@[simp] theorem retireItem_acceptance (tag : Tag) : (s.retireItem tag).host.acceptance = s.host.acceptance := by
  unfold State.retireItem
  split
  · rfl
  · dsimp only
    split <;> split <;> simp

@[simp] theorem cancelItem_acceptance (i : Item) : (s.cancelItem i).host.acceptance = s.host.acceptance := by
  simp [State.cancelItem]

/-! #### The stations and the confirmation monitor -/

@[simp] theorem failStation_acceptance (n : StationId) (tag : Tag) :
    (s.failStation n tag).host.acceptance = s.host.acceptance := by
  unfold State.failStation
  dsimp only
  split <;> simp

@[simp] theorem declareMissed_acceptance (n : StationId) (w : Watch) (aux : Word) :
    (s.declareMissed n w aux).host.acceptance = s.host.acceptance := by
  unfold State.declareMissed
  dsimp only
  split <;> split <;> simp

@[simp] theorem missHead_acceptance (n : StationId) (aux : Word) :
    (s.missHead n aux).host.acceptance = s.host.acceptance := by
  unfold State.missHead
  split
  · rfl
  · exact declareMissed_acceptance ..

@[simp] theorem startWatch_acceptance (n : StationId) (tag : Tag) (l : LaneId) :
    (s.startWatch n tag l).host.acceptance = s.host.acceptance := by
  unfold State.startWatch
  dsimp only
  split
  · simp
  · split <;> simp

theorem placeHolder_host {s t : State} {n : StationId} {fire : Pos} {i : Item} (h : s.placeHolder n fire i = some t) :
    t.host = s.host := by
  unfold State.placeHolder at h
  dsimp only at h
  split at h
  · obtain rfl := Option.some.inj h
    rfl
  · obtain rfl := Option.some.inj h
    rfl
  · obtain ⟨r, -, rfl⟩ := Option.map_eq_some_iff.1 h
    rfl

@[simp] theorem markAndWatch_acceptance (n : StationId) (i : Item) :
    (s.markAndWatch n i).host.acceptance = s.host.acceptance := by
  unfold State.markAndWatch
  dsimp only
  split <;> simp

@[simp] theorem fireOn_acceptance (n : StationId) (fire : Pos) (tag : Tag) :
    (s.fireOn n fire tag).host.acceptance = s.host.acceptance := by
  unfold State.fireOn
  split
  · rfl
  · split
    · split
      · rfl
      · next placed => simp [placeHolder_host placed]
    · rfl

/-! #### The action list -/

@[simp] theorem fireEntry_acceptance (e : Entry) : (s.fireEntry e).host.acceptance = s.host.acceptance := by
  unfold State.fireEntry
  split <;> simp

@[simp] theorem listAdvance_acceptance : s.listAdvance.host.acceptance = s.host.acceptance := by
  unfold State.listAdvance
  split
  · rfl
  · refine fireDue_induction (P := fun t => t.host.acceptance = s.host.acceptance) (fun t e rest h _ => ?_) _ rfl
    rw [fireEntry_acceptance, updEntries_host, h]
  · rfl

@[simp] theorem catchEntry_acceptance (e : Entry) : (s.catchEntry e).host.acceptance = s.host.acceptance := by
  unfold State.catchEntry State.missAction
  split <;> simp

@[simp] theorem catchUp_acceptance : s.catchUp.1.host.acceptance = s.host.acceptance := by
  refine catchUpLoop_induction (P := fun t => t.host.acceptance = s.host.acceptance) (fun t e rest h _ => ?_) _ _ _ rfl
  rw [catchEntry_acceptance, updEntries_host, h]

/-! #### The lane detectors -/

@[simp] theorem findLong_acceptance (l : LaneId) (tag : Tag) :
    (s.findLong l tag).host.acceptance = s.host.acceptance := by
  simp [State.findLong]

@[simp] theorem checkLong_acceptance (l : LaneId) : (s.checkLong l).host.acceptance = s.host.acceptance := by
  unfold State.checkLong
  split <;> simp

@[simp] theorem refuseAdmission_acceptance (l : LaneId) (reason : Word) :
    (s.refuseAdmission l reason).host.acceptance = s.host.acceptance := by
  unfold State.refuseAdmission
  dsimp only
  split <;> simp

@[simp] theorem requestAdmission_acceptance (l : LaneId) (pos : Pos) :
    (s.requestAdmission l pos).host.acceptance = s.host.acceptance := by
  unfold State.requestAdmission State.linkAdmitted
  split <;> simp

@[simp] theorem acceptLeading_acceptance (l : LaneId) (pos : Pos) :
    (s.acceptLeading l pos).host.acceptance = s.host.acceptance := by
  unfold State.acceptLeading
  dsimp only
  split <;> simp

@[simp] theorem longAtTrailing_acceptance (l : LaneId) (i : Item) (length : Pos) :
    (s.longAtTrailing l i length).host.acceptance = s.host.acceptance := by
  unfold State.longAtTrailing
  split <;> simp

@[simp] theorem shortAtTrailing_host (l : LaneId) (tag : Tag) (length : Pos) :
    (s.shortAtTrailing l tag length).host = s.host := by
  unfold State.shortAtTrailing
  split <;> simp

@[simp] theorem acceptTrailing_acceptance (l : LaneId) (link : Option Tag) (pos : Pos) :
    (s.acceptTrailing l link pos).host.acceptance = s.host.acceptance := by
  unfold State.acceptTrailing State.reportTrailing
  dsimp only
  split <;> simp

@[simp] theorem laneInput_acceptance (l : LaneId) : (s.laneInput l).host.acceptance = s.host.acceptance := by
  unfold State.laneInput
  dsimp only
  split
  · rfl
  · split
    · rfl
    · split <;> simp
    · split
      · split <;> simp
      · rfl
    · split <;> simp
    · split
      · simp
      · split <;> simp

@[simp] theorem laneAdvance_acceptance (l : LaneId) : (s.laneAdvance l).host.acceptance = s.host.acceptance := by
  unfold State.laneAdvance
  split
  · split <;> simp
  · rfl

@[simp] theorem laneResample_acceptance (l : LaneId) : (s.laneResample l).host.acceptance = s.host.acceptance := by
  unfold State.laneResample
  dsimp only
  split
  · rfl
  · split
    · rfl
    · split <;> simp
    · split
      · split <;> simp
      · rfl
    · split <;> simp
    · split <;> simp

theorem foldl_laneResample_acceptance (lanes : List LaneId) :
    (lanes.foldl State.laneResample s).host.acceptance = s.host.acceptance := by
  induction lanes generalizing s with
  | nil => rfl
  | cons l rest ih => exact (ih _).trans (laneResample_acceptance s l)

@[simp] theorem resampleAll_acceptance : s.resampleAll.host.acceptance = s.host.acceptance :=
  inFreeOrder_induction (P := fun t => t.host.acceptance = s.host.acceptance)
    (fun t xs h => by rw [countChoice_host, h]) (fun l t h => (laneResample_acceptance t l).trans h) _ _
    (foldl_laneResample_acceptance ..)

/-! #### The belt -/

@[simp] theorem runTask_acceptance (task : Task) : (s.runTask task).host.acceptance = s.host.acceptance := by
  cases task <;> simp [State.runTask]

@[simp] theorem takeAdvance_acceptance : s.takeAdvance.host.acceptance = s.host.acceptance := by
  have hwork : (State.runTasks taskFuel s.advanceTasks s).host.acceptance = s.host.acceptance :=
    runTasks_induction (P := fun t => t.host.acceptance = s.host.acceptance)
      (fun t xs h => by rw [countChoice_host, h]) (fun t task h => (runTask_acceptance t task).trans h)
      (fun _ _ h => h) _ _ rfl
  unfold State.takeAdvance State.settleTracking
  split <;> simp [hwork]

@[simp] theorem moveCounter_acceptance (counter : Pos) :
    (s.moveCounter counter).host.acceptance = s.host.acceptance := by
  unfold State.moveCounter
  dsimp only
  split <;> simp

@[simp] theorem forwardStep_acceptance : s.forwardStep.host.acceptance = s.host.acceptance := by
  unfold State.forwardStep
  dsimp only
  split
  · simp
  · split <;> simp
  · split <;> simp

@[simp] theorem backwardStep_acceptance : s.backwardStep.host.acceptance = s.host.acceptance := by
  unfold State.backwardStep
  dsimp only
  split
  · simp
  · split <;> simp
  · simp

@[simp] theorem move_acceptance (m : Motion) : (s.move m).host.acceptance = s.host.acceptance := by
  cases m <;> simp [State.move]

@[simp] theorem takeEdge_host (input : InputId) (rising : Bool) : (s.takeEdge input rising).host = s.host := by
  unfold State.takeEdge
  split
  · rfl
  · split <;> rfl

/-! #### RESUME (R146) -/

@[simp] theorem resumeSampling_acceptance : s.resumeSampling.host.acceptance = s.host.acceptance := by
  unfold State.resumeSampling
  split <;> simp

@[simp] theorem resumeOverReverse_acceptance : s.resumeOverReverse.host.acceptance = s.host.acceptance := by
  unfold State.resumeOverReverse
  split <;> simp

theorem resumeRun_acceptance : s.resumeRun.state.host.acceptance = s.host.acceptance := by
  simp [State.resumeRun, Answer.done, State.reportResumed]

/-! #### The register window -/

theorem writeStatus_acceptance (value : Word) : (s.writeStatus value).host.acceptance = s.host.acceptance := by
  unfold State.writeStatus
  split <;> rfl

theorem writeThreshold_acceptance (value : Word) :
    (s.writeThreshold value).host.acceptance = s.host.acceptance := by
  unfold State.writeThreshold
  dsimp only
  split <;> rfl

/-- Of the writes by register number, the one to CMD alone moves them. -/
theorem writeRegister_acceptance {register : BitVec 5} (value : Word) (h : register ≠ 5) :
    (s.writeRegister register value).host.acceptance = s.host.acceptance := by
  unfold State.writeRegister
  split
  case h_1 => exact writeStatus_acceptance ..
  case h_4 hcmd => exact absurd (BitVec.eq_of_toNat_eq hcmd) h
  case h_13 => exact writeThreshold_acceptance ..
  all_goals rfl

theorem popEventWord_host : s.popEventWord.host = s.host := by
  unfold State.popEventWord
  split
  · rfl
  · split <;> rfl

end

/-! ### What a command does to them

One lemma for each way a command comes to its effect: a completion, a pin event, a read and a write. -/

/-- The owner's judgement, and what it does before the result is given, leave CMD_OVERRUN and the parameter copy. -/
def KeepsAcceptance (judge : State → Answer) : Prop := ∀ t, (judge t).state.host.acceptance = t.host.acceptance

theorem inSetup_keepsAcceptance {judge : State → Answer} (h : KeepsAcceptance judge) :
    KeepsAcceptance (inSetup judge) := by
  intro t
  unfold inSetup
  split
  · exact h t
  · rfl
  · rfl

theorem outsideSetup_keepsAcceptance {judge : State → Answer} (h : KeepsAcceptance judge) :
    KeepsAcceptance (outsideSetup judge) := by
  intro t
  unfold outsideSetup
  split
  · rfl
  · exact h t
  · exact h t

theorem complete_acceptance {code : BitVec 8} {judge : State → Answer} {s t : State}
    (h : complete code judge s = .next t) (hj : KeepsAcceptance judge) : t.host.acceptance = s.host.acceptance := by
  obtain hidle | hdone := complete_cases code judge s
  · obtain rfl := Host.Outcome.next.inj (h.symm.trans hidle)
    exact amid_acceptance s fun _ => rfl
  · obtain rfl := Host.Outcome.next.inj (h.symm.trans hdone)
    exact amid_acceptance s fun u => hj u

theorem atPin_acceptance {pin event : State → State} {s t : State} (h : s.atPin pin event = .next t)
    (hpin : ∀ u, (pin u).host = u.host) (hevent : ∀ u, (event u).host.acceptance = u.host.acceptance) :
    t.host.acceptance = s.host.acceptance := by
  obtain rfl := Host.Outcome.next.inj h
  refine amid_acceptance s fun u => ?_
  split
  · rw [hevent, hpin]
  · rw [hpin]

theorem readCycle_acceptance {register : BitVec 5} {effect : State → State} {s t : State}
    (h : .next (s.readCycle register effect) = (.next t : Host.Outcome State Fault Refusal))
    (he : ∀ u, (effect u).host = u.host) :
    t.host.acceptance = s.host.acceptance := by
  obtain rfl := Host.Outcome.next.inj h
  refine amid_acceptance s fun u => ?_
  split
  · rw [answerRead_host, he]
  · split <;> rfl

theorem writeCycle_acceptance {effect : State → State} {s t : State}
    (h : .next (s.writeCycle effect) = (.next t : Host.Outcome State Fault Refusal))
    (he : ∀ u, (effect u).host.acceptance = u.host.acceptance) :
    t.host.acceptance = s.host.acceptance := by
  obtain rfl := Host.Outcome.next.inj h
  refine amid_acceptance s fun u => ?_
  split
  · exact he u
  · rfl

/-! #### The owners' judgements -/

theorem judgeSetGlobal_keepsAcceptance : KeepsAcceptance judgeSetGlobal :=
  inSetup_keepsAcceptance fun _ => by split <;> rfl

theorem judgeSetLane_keepsAcceptance : KeepsAcceptance judgeSetLane :=
  inSetup_keepsAcceptance fun _ => by split <;> rfl

theorem judgeGetLane_keepsAcceptance : KeepsAcceptance judgeGetLane := by
  intro t
  unfold judgeGetLane
  split <;> rfl

theorem judgeSetStation_keepsAcceptance : KeepsAcceptance judgeSetStation :=
  inSetup_keepsAcceptance fun _ => by split <;> rfl

theorem judgeGetStation_keepsAcceptance : KeepsAcceptance judgeGetStation := by
  intro t
  unfold judgeGetStation
  split <;> rfl

theorem judgeSetOutput_keepsAcceptance : KeepsAcceptance judgeSetOutput :=
  inSetup_keepsAcceptance fun _ => by split <;> rfl

theorem judgeForceOutput_keepsAcceptance : KeepsAcceptance judgeForceOutput :=
  inSetup_keepsAcceptance fun _ => by split <;> rfl

theorem judgePresetPosition_keepsAcceptance : KeepsAcceptance judgePresetPosition :=
  inSetup_keepsAcceptance fun _ => rfl

theorem judgeStart_keepsAcceptance : KeepsAcceptance judgeStart := by
  refine inSetup_keepsAcceptance fun t => ?_
  split
  · rfl
  · split <;> rfl

theorem judgeStop_keepsAcceptance : KeepsAcceptance judgeStop := by
  intro t
  unfold judgeStop
  split <;> rfl

theorem judgeHalt_keepsAcceptance : KeepsAcceptance judgeHalt := by
  intro t
  unfold judgeHalt
  split
  · rfl
  · exact takeHalt_acceptance ..
  · rfl

theorem judgeResume_keepsAcceptance : KeepsAcceptance judgeResume := by
  intro t
  unfold judgeResume
  split
  · rfl
  · rfl
  · split
    · rfl
    · exact resumeRun_acceptance t

theorem judgeDecide_keepsAcceptance : KeepsAcceptance judgeDecide := by
  refine outsideSetup_keepsAcceptance fun t => ?_
  split
  · rfl
  · split
    · rfl
    · unfold decideOn
      split
      · rfl
      · split <;> rfl

theorem judgeCancel_keepsAcceptance : KeepsAcceptance judgeCancel := by
  refine outsideSetup_keepsAcceptance fun t => ?_
  split
  · rfl
  · split
    · rfl
    · exact cancelItem_acceptance ..

theorem judgeQueryItem_keepsAcceptance : KeepsAcceptance judgeQueryItem := by
  refine outsideSetup_keepsAcceptance fun t => ?_
  split
  · split <;> rfl
  · rfl
  · rfl

theorem switchOn_host (s : State) (n : StationId) : (s.switchOn n).state.host = s.host := by
  unfold State.switchOn
  split <;> rfl

theorem switchOff_host (s : State) (n : StationId) : (s.switchOff n).state.host = s.host := by
  unfold State.switchOff
  split <;> rfl

theorem judgeStationEnable_host (s : State) : (judgeStationEnable s).state.host = s.host := by
  unfold judgeStationEnable
  split
  · split
    · rfl
    · split
      · exact switchOn_host ..
      · exact switchOff_host ..
    · split
      · exact switchOn_host ..
      · exact switchOff_host ..
  · rfl
  · rfl

theorem judgeReadLaneCounters_keepsAcceptance : KeepsAcceptance judgeReadLaneCounters := by
  intro t
  unfold judgeReadLaneCounters
  split
  · dsimp only [Answer.done]
    split <;> rfl
  · rfl
  · rfl

/-! #### The commands -/

theorem exec_unknownCommand_acceptance {s t : State} (h : exec .unknownCommand s = .next t) :
    t.host.acceptance = s.host.acceptance := by
  change execUnknownCommand s = .next t at h
  unfold execUnknownCommand at h
  split at h
  · obtain rfl := Host.Outcome.next.inj h
    exact amid_acceptance s fun _ => rfl
  · exact complete_acceptance h (fun _ => rfl)

/-- Beside resets and CMD writes no command moves CMD_OVERRUN or the parameter copy (R171, R173). -/
theorem exec_acceptance {c : Instr} {s t : State} (hreset : isResetCommand c = false)
    (hcmd : ∀ value, c ≠ .cmdWrite value) (hreg : ∀ value, c ≠ .registerWrite 5 value) (h : exec c s = .next t) :
    t.host.acceptance = s.host.acceptance := by
  cases c with
  | powerApplied => nomatch hreset
  | powerOnResetEnd => nomatch hreset
  | resetNAssert => nomatch hreset
  | resetNRelease => nomatch hreset
  | powerLoss => nomatch hreset
  | encoderTransition a b =>
    have hpin : execEncoderTransition a b s = .next t := h
    exact atPin_acceptance hpin (fun _ => rfl) (fun _ => move_acceptance ..)
  | timePulseEnd n =>
    have hpin : execTimePulseEnd n s = .next t := h
    exact atPin_acceptance hpin (fun _ => rfl) (fun _ => rfl)
  | watchExpiry n =>
    have hpin : execWatchExpiry n s = .next t := h
    exact atPin_acceptance hpin (fun _ => rfl) (fun _ => missHead_acceptance ..)
  | confirmEdge input rising =>
    have hpin : execConfirmEdge input rising s = .next t := h
    exact atPin_acceptance hpin (fun _ => rfl) (fun _ => by split <;> simp)
  | detInputChange l level =>
    have hpin : execDetInputChange l level s = .next t := h
    exact atPin_acceptance hpin (fun _ => rfl) (fun _ => by split <;> simp)
  | hldAssert =>
    have hpin : execHldAssert s = .next t := h
    exact atPin_acceptance hpin (fun _ => rfl) (fun _ => by split <;> simp)
  | hldRelease =>
    have hpin : execHldRelease s = .next t := h
    exact atPin_acceptance hpin (fun _ => rfl) (fun _ => rfl)
  | cmdWrite value => exact absurd rfl (hcmd value)
  | setGlobal => exact complete_acceptance h judgeSetGlobal_keepsAcceptance
  | getGlobal => exact complete_acceptance h (fun _ => rfl)
  | setLane => exact complete_acceptance h judgeSetLane_keepsAcceptance
  | getLane => exact complete_acceptance h judgeGetLane_keepsAcceptance
  | setStation => exact complete_acceptance h judgeSetStation_keepsAcceptance
  | getStation => exact complete_acceptance h judgeGetStation_keepsAcceptance
  | setOutput => exact complete_acceptance h judgeSetOutput_keepsAcceptance
  | forceOutput => exact complete_acceptance h judgeForceOutput_keepsAcceptance
  | presetPosition => exact complete_acceptance h judgePresetPosition_keepsAcceptance
  | start => exact complete_acceptance h judgeStart_keepsAcceptance
  | stop => exact complete_acceptance h judgeStop_keepsAcceptance
  | halt => exact complete_acceptance h judgeHalt_keepsAcceptance
  | resume => exact complete_acceptance h judgeResume_keepsAcceptance
  | decideItem => exact complete_acceptance h judgeDecide_keepsAcceptance
  | cancel => exact complete_acceptance h judgeCancel_keepsAcceptance
  | queryItem => exact complete_acceptance h judgeQueryItem_keepsAcceptance
  | stationEnable =>
    exact complete_acceptance h (fun u => congrArg HostInterface.acceptance (judgeStationEnable_host u))
  | readCounts => exact complete_acceptance h (fun _ => rfl)
  | readLaneCounters => exact complete_acceptance h judgeReadLaneCounters_keepsAcceptance
  | reinit => exact complete_acceptance h (fun _ => rfl)
  | unknownCommand => exact exec_unknownCommand_acceptance h
  | posLowRead => exact readCycle_acceptance h (fun _ => rfl)
  | trackLowRead => exact readCycle_acceptance h (fun _ => rfl)
  | eventDataRead => exact readCycle_acceptance h popEventWord_host
  | eventDataWrite value => exact writeCycle_acceptance h (fun _ => rfl)
  | intStatusWrite value => exact writeCycle_acceptance h (fun _ => rfl)
  | intEnableWrite value => exact writeCycle_acceptance h (fun _ => rfl)
  | eventThresholdWrite value => exact writeCycle_acceptance h (fun u => writeThreshold_acceptance u value)
  | statusWrite value => exact writeCycle_acceptance h (fun u => writeStatus_acceptance u value)
  | registerWrite register value =>
    have hne : register ≠ 5 := fun heq => hreg value (congrArg (Instr.registerWrite · value) heq)
    exact writeCycle_acceptance h (fun u => writeRegister_acceptance u value hne)

/-! ### The statement -/

/-- Settles O31: a CMD write in each command state, and the frame of what it moves over every other command. -/
theorem commandWrite : Obligations.CommandWrite := by
  refine ⟨fun s value h => ⟨fun ready => ?_, fun busy => ?_⟩, fun c s t hreset hcmd hreg h => ?_⟩
  · obtain ⟨hrun, -⟩ := id h
    refine ⟨s.acceptCommand value, by rw [exec_cmdWrite value h, writeCmd_ready value ready], rfl, ?_, ?_⟩
    · exact registerRead_cmd (s := s.acceptCommand value) hrun rfl
    · exact statusWord_busy (s.acceptCommand value)
  · exact ⟨_, by rw [exec_cmdWrite value h, writeCmd_busy value busy], rfl, statusWord_overrun _⟩
  · exact Prod.mk.inj (exec_acceptance hreset hcmd hreg h)

end Sys2Proof.Machine
end

section
/-! PROOFS. What the blocks can do within a step, said once: a work of a block changes records, the queue, the list and
the stations in one of a few ways and leaves the operating state alone, and operating control takes the requests. Every
operation of the blocks is a chain of these. -/

namespace Sys2Proof

theorem upd_upd {α : Type} {n : Nat} (v : Vector α n) (i : Fin n) (f g : α → α) :
    upd (upd v i f) i g = upd v i (fun x => g (f x)) := by
  simp [upd]

namespace Machine

/-! ### One piece of work -/

/-- What a block notes: an event, the counters of a lane and its previous leading position, its detector, or a record
that keeps its tag. A detector that is OFF stays so, and a capture is taken at the tracking position alone (R20, R31). -/
inductive Note (s : State) : State → Prop
  | event (r : EventRecord) : Note s (s.arrive r)
  | lane (l : LaneId) (f : Lane → Lane) (hf : ∀ x, (f x).config = x.config ∧ (f x).detector = x.detector) :
      Note s (s.updLane l f)
  | detector (l : LaneId) (d : Detector) (hon : s.lanes[l].detector ≠ .off)
      (hd : ∀ capture, d = .filtering capture →
        capture = s.position.tracking ∧ s.inputActive l = true
          ∧ (s.lanes[l].config.filter ≠ 0 ∨ ∃ before, s.lanes[l].detector = .filtering before)) :
      Note s (s.setDetector l d)
  | item (tag : Tag) (f : Item → Item) (hf : ∀ i, (f i).tag = i.tag) : Note s (s.updItem tag f)

abbrev Notes : State → State → Prop := Relation.ReflTransGen Note

/-- Who works: a lane at an advance, which may accept the edge it captured; a lane that acts on its input or re-samples;
or a block that admits no item. -/
inductive Worker where
  | advance
  | lane
  | list
  deriving DecidableEq

/-- An item admitted, but for its event. -/
def State.enroll (s : State) (l : LaneId) (leading : Pos) (tag : Tag) : State :=
  (s.plan l leading tag).foldl State.place
    { s with queue := { items := s.queue.items ++ [newItem tag l leading s.lanes[l].config.defaultClass]
                        nextTag := succTag tag } }

theorem admitItem_eq_enroll (s : State) (l : LaneId) (leading : Pos) (tag : Tag) :
    s.admitItem l leading tag = (s.enroll l leading tag).report .itemAdmitted (laneUnit l) tag (lo leading) (hi leading) :=
  rfl

/-- The position at which a lane accepts a leading edge: at an advance the capture position, else, with filter distance
0, the tracking position (R20, R21, R31). -/
def State.AcceptsAt (s : State) (w : Worker) (l : LaneId) (pos : Pos) : Prop :=
  (w = .advance ∧ s.lanes[l].detector = .filtering pos)
    ∨ (s.lanes[l].config.filter = 0 ∧ pos = s.position.tracking ∧ s.lanes[l].detector ≠ .off)

/-- Station `n` out of service: no ON entry of it and no watch is left (R76, R93, R96). -/
def State.withdraw (s : State) (n : StationId) (runtime : Runtime) : State :=
  (s.removeOnEntries n).updStation n (fun st => { st with runtime := runtime, watches := [] })

/-- The passage to FAILED with its halt request, but for its event (R96). -/
def State.failing (s : State) (n : StationId) : State :=
  if s.globals.haltOnFail then (s.withdraw n .failed).requestHalt .stationFail else s.withdraw n .failed

/-- An entry that `p` finds leaves the list. -/
def State.Takes (s : State) (p : Entry → Bool) (e : Entry) (rest : List Entry) : Prop :=
  takeFirst p s.list.entries = some (e, rest)

/-- The list without an entry. -/
def State.left (s : State) (rest : List Entry) : State := s.updEntries (fun _ => rest)

/-- One piece of work of a block. -/
inductive Work (w : Worker) (s : State) : State → Prop
  | note {t : State} (h : Note s t) : Work w s t
  | enrol (l : LaneId) (pos : Pos) (tag : Tag) (hw : w ≠ .list) (hb : s.blanked = false) (hpos : s.AcceptsAt w l pos)
      (hq : s.judgeAdmission l = .admitted tag) : Work w s (s.enroll l pos tag)
  | request (c : Cause) (hw : w ≠ .list) : Work w s (s.requestHalt c)
  | drop (p : Entry → Bool) (e : Entry) (rest : List Entry) (ht : s.Takes p e rest)
      (hn : e.isRetire = true → s.findItem e.tag = none) : Work w s (s.left rest)
  | activate (e : Entry) (rest : List Entry) (n : StationId) (i : Item) (placed : State)
      (ho : s.control.op = .tracking) (ht : s.Takes s.due e rest) (hk : e.kind = .on n)
      (hp : (s.left rest).placeHolder n e.fire i = some placed) : Work w s placed
  | activateWatch (e : Entry) (rest : List Entry) (n : StationId) (i : Item) (placed : State)
      (ho : s.control.op = .tracking) (ht : s.Takes s.due e rest) (hk : e.kind = .on n)
      (hp : (s.left rest).placeHolder n e.fire i = some placed) (hroom : s.stations[n].watches.length < 4) :
      Work w s (placed.appendWatch n i.tag i.lane)
  | retire (p : Entry → Bool) (e : Entry) (rest : List Entry) (ht : s.Takes p e rest)
      (hp : (s.control.op = .tracking ∧ p = s.due) ∨ p = Entry.reached) (hk : e.isRetire = true) :
      Work w s ((s.left rest).freeItem e.tag)
  | cancel (tag : Tag) : Work w s ((s.updEntries (fun es => es.filter (fun e => !e.plannedFor tag))).freeItem tag)
  | rekey (tag : Tag) (t : Pos) (hb : s.blanked = false) : Work w s (s.rekey tag t)
  | stations (v : Vector Station 16)
      (hv : ∀ n : StationId, v[n].config = s.stations[n].config ∧ v[n].runtime = s.stations[n].runtime
        ∧ (s.stations[n].pulse = none → v[n].pulse = none) ∧ v[n].watches.length ≤ s.stations[n].watches.length) :
      Work w s { s with stations := v }
  | withdraw (n : StationId) (hr : s.stations[n].runtime = .enabled) : Work w s (s.withdraw n .disabled)
  | fail (n : StationId) (hr : s.stations[n].runtime = .enabled) : Work w s (s.failing n)
  | overtake (n : StationId) (new : Watch) (hr : s.stations[n].runtime = .enabled)
      (hfull : 4 ≤ s.stations[n].watches.length) :
      Work w s (s.updStation n (fun st => { st with watches := st.watches.tail ++ [new] }))
  | mark (ho : s.control.op = .halted) : Work w s s.markReached

abbrev Works (w : Worker) : State → State → Prop := Relation.ReflTransGen (Work w)

/-! ### What operating control does with a request -/

/-- Halt entry, but for its event and the bit of INT_STATUS (R141). -/
def State.haltTaken (s : State) (c : Cause) : State :=
  { s.takeFaultActions.discardWatches with
    control := { s.control with op := .halted, firstCause := some c, causeMask := s.control.causeMask ||| c.bit }
    list := { s.list with firingPoint := s.position.tracking } }

/-- What operating control does with a request, and what no invariant speaks of: the register window, the word last
read, the requests on their way, the free choices made and the commands that wait. -/
inductive Settles (s : State) : State → Prop
  | halt (c : Cause) (ho : s.control.op = .tracking) : Settles s (s.haltTaken c)
  | again (c : Cause) (ho : s.control.op = .halted) :
      Settles s { s with control := { s.control with causeMask := s.control.causeMask ||| c.bit } }
  | book (requests : List Cause) (host : HostInterface) (readData : Word) (choices : Nat) (pending : List Instr) :
      Settles s { s with control := { s.control with requests := requests }, host := host, readData := readData
                         choices := choices, pending := pending }

/-- A work of a block, or a step of operating control. -/
def Change (s t : State) : Prop := (∃ w, Work w s t) ∨ Settles s t

abbrev Chain : State → State → Prop := Relation.ReflTransGen Change

theorem Notes.works {s t : State} (w : Worker) (h : Notes s t) : Works w s t := Relation.ReflTransGen.mono (fun _ _ hn => .note hn) _ _ h

theorem Works.chain {w : Worker} {s t : State} (h : Works w s t) : Chain s t := Relation.ReflTransGen.mono (fun _ _ hw => .inl ⟨w, hw⟩) _ _ h

theorem Settles.chain {s t : State} (h : Settles s t) : Chain s t := .single (.inr h)

/-! ### What every work leaves unchanged -/

/-- What no work of a block changes: the supply, the pins, the positions, the outputs, every configuration, operating
control but for its requests, and the firing point. -/
structure Frame (s t : State) : Prop where
  power : t.power = s.power
  pins : t.pins = s.pins
  position : t.position = s.position
  outputs : t.outputs = s.outputs
  cfmRef : t.cfmRef = s.cfmRef
  globals : t.globals = s.globals
  op : t.control.op = s.control.op
  firstCause : t.control.firstCause = s.control.firstCause
  causeMask : t.control.causeMask = s.control.causeMask
  hldAsserted : t.control.hldAsserted = s.control.hldAsserted
  firingPoint : t.list.firingPoint = s.list.firingPoint
  mask : t.events.mask = s.events.mask
  laneConfig : ∀ l : LaneId, t.lanes[l].config = s.lanes[l].config
  stationConfig : ∀ n : StationId, t.stations[n].config = s.stations[n].config

theorem Frame.refl (s : State) : Frame s s :=
  ⟨rfl, rfl, rfl, rfl, rfl, rfl, rfl, rfl, rfl, rfl, rfl, rfl, fun _ => rfl, fun _ => rfl⟩

theorem Frame.trans {s t u : State} (h : Frame s t) (h' : Frame t u) : Frame s u :=
  ⟨h'.1.trans h.1, h'.2.trans h.2, h'.3.trans h.3, h'.4.trans h.4, h'.5.trans h.5, h'.6.trans h.6, h'.7.trans h.7,
    h'.8.trans h.8, h'.9.trans h.9, h'.10.trans h.10, h'.11.trans h.11, h'.12.trans h.12,
    fun l => (h'.13 l).trans (h.13 l), fun n => (h'.14 n).trans (h.14 n)⟩

theorem frame_arrive (s : State) (r : EventRecord) : Frame s (s.arrive r) := by
  rw [arrive_eq]
  exact { Frame.refl s with power := rfl }

theorem frame_updLane (s : State) (l : LaneId) {f : Lane → Lane} (hf : ∀ x, (f x).config = x.config) :
    Frame s (s.updLane l f) :=
  { Frame.refl s with laneConfig := fun m => upd_get_proj l m Lane.config (hf _) }

theorem frame_updStation (s : State) (n : StationId) {f : Station → Station} (hf : ∀ x, (f x).config = x.config) :
    Frame s (s.updStation n f) :=
  { Frame.refl s with stationConfig := fun m => upd_get_proj n m Station.config (hf _) }

theorem Note.frame {s t : State} (h : Note s t) : Frame s t := by
  cases h with
  | event r => exact frame_arrive s r
  | lane l f hf => exact frame_updLane s l fun x => (hf x).1
  | detector l d hon hd => exact frame_updLane s l fun _ => rfl
  | item tag f hf => exact { Frame.refl s with power := rfl }

theorem foldl_place_eq (s : State) (entries : List Entry) :
    entries.foldl State.place s = s.updEntries fun es => entries.foldl (fun es e => insertEntry s.list.firingPoint e es) es := by
  induction entries generalizing s with
  | nil => rfl
  | cons e rest ih => exact ih (s.place e)

/-- The list after an admission: the planned entries placed one after another. -/
theorem enroll_eq (s : State) (l : LaneId) (leading : Pos) (tag : Tag) :
    s.enroll l leading tag =
      { s with
        queue := { items := s.queue.items ++ [newItem tag l leading s.lanes[l].config.defaultClass]
                   nextTag := succTag tag }
        list := { s.list with entries :=
          (s.plan l leading tag).foldl (fun es e => insertEntry s.list.firingPoint e es) s.list.entries } } := by
  rw [State.enroll, foldl_place_eq]
  rfl

/-- The holder of an activation: an OFF entry, or the time pulse. -/
theorem placeHolder_cases {s t : State} {n : StationId} {fire : Pos} {i : Item} (h : s.placeHolder n fire i = some t) :
    (∃ pos r, t = s.place (Entry.make (.off n r) pos i.tag)
      ∧ ((s.stations[n].config.mode = .count ∧ pos = fire + s.stations[n].config.pulseWord.zeroExtend 32)
        ∨ (s.stations[n].config.mode = .item ∧ itemOff s.stations[n].config fire i.trailing = some (pos, r))))
    ∨ t = s.loadPulse n := by
  unfold State.placeHolder at h
  dsimp only at h
  split at h
  next hm => exact .inl ⟨_, false, (Option.some.inj h).symm, .inl ⟨hm, rfl⟩⟩
  next hm => exact .inr (Option.some.inj h).symm
  next hm =>
    obtain ⟨⟨pos, r⟩, hr, rfl⟩ := Option.map_eq_some_iff.1 h
    exact .inl ⟨pos, r, rfl, .inr ⟨hm, hr⟩⟩

theorem frame_placeHolder {s t : State} {n : StationId} {fire : Pos} {i : Item} (h : s.placeHolder n fire i = some t) :
    Frame s t := by
  obtain ⟨pos, r, rfl, -⟩ | rfl := placeHolder_cases h
  · exact { Frame.refl s with power := rfl }
  · exact frame_updStation s n fun _ => rfl

theorem frame_withdraw (s : State) (n : StationId) (r : Runtime) : Frame s (s.withdraw n r) :=
  Frame.trans (t := s.removeOnEntries n) { Frame.refl s with power := rfl } (frame_updStation _ n fun _ => rfl)

theorem frame_failing (s : State) (n : StationId) : Frame s (s.failing n) := by
  unfold State.failing
  split
  · exact (frame_withdraw s n .failed).trans { Frame.refl _ with power := rfl }
  · exact frame_withdraw s n .failed

theorem Work.frame {w : Worker} {s t : State} (h : Work w s t) : Frame s t := by
  cases h with
  | note h => exact h.frame
  | enrol l pos tag =>
    rw [enroll_eq]
    exact { Frame.refl s with power := rfl }
  | request c => exact { Frame.refl s with power := rfl }
  | drop p e rest => exact { Frame.refl s with power := rfl }
  | activate e rest n i placed ho ht hk hp => exact Frame.trans (t := s.left rest) { Frame.refl s with power := rfl } (frame_placeHolder hp)
  | activateWatch e rest n i placed ho ht hk hp =>
    exact Frame.trans (t := s.left rest) { Frame.refl s with power := rfl } ((frame_placeHolder hp).trans (frame_updStation _ n fun _ => rfl))
  | retire p e rest => exact { Frame.refl s with power := rfl }
  | cancel tag => exact { Frame.refl s with power := rfl }
  | rekey tag t => exact { Frame.refl s with power := rfl }
  | stations v hv => exact { Frame.refl s with stationConfig := fun n => (hv n).1 }
  | withdraw n hr => exact frame_withdraw s n .disabled
  | fail n hr => exact frame_failing s n
  | overtake n new => exact frame_updStation s n fun _ => rfl
  | mark ho => exact { Frame.refl s with power := rfl }

/-- What every work keeps, holds after all of it. -/
theorem Works.induction {w : Worker} {P : State → Prop} (hk : ∀ s t, Work w s t → P s → P t) {s t : State}
    (h : Works w s t) (hs : P s) : P t := by
  induction h with
  | refl => exact hs
  | tail _ hstep ih => exact hk _ _ hstep ih

theorem Works.frame {w : Worker} {s t : State} (h : Works w s t) : Frame s t :=
  Works.induction (P := Frame s) (fun _ _ hw hf => hf.trans hw.frame) h (Frame.refl s)

theorem Notes.frame {s t : State} (h : Notes s t) : Frame s t := Works.frame (Notes.works .list h)

theorem Chain.induction {P : State → Prop} (hw : ∀ s t w, Work w s t → P s → P t) (hc : ∀ s t, Settles s t → P s → P t)
    {s t : State} (h : Chain s t) (hs : P s) : P t := by
  induction h with
  | refl => exact hs
  | tail _ hstep ih =>
    obtain ⟨w, hwork⟩ | hsettles := hstep
    · exact hw _ _ w hwork ih
    · exact hc _ _ hsettles ih

end Machine

end Sys2Proof
end

section
/-! PROOFS. Every operation of the blocks is a chain of works, and the taking of requests a chain of changes. -/

namespace Sys2Proof.Machine

open Relation (ReflTransGen)

/-! ### Notes -/

theorem notes_arrive (s : State) (r : EventRecord) : Notes s (s.arrive r) := .single (.event r)

theorem notes_report (s : State) (kind : EventKind) (unit : BitVec 4) (tag : Tag) (auxA auxB : Word) :
    Notes s (s.report kind unit tag auxA auxB) := notes_arrive ..

theorem notes_countLane (s : State) (l : LaneId) (n : CounterName) : Notes s (s.countLane l n) :=
  .single (.lane l _ fun _ => ⟨rfl, rfl⟩)

theorem notes_setDetector {s : State} {l : LaneId} {d : Detector} (hon : s.lanes[l].detector ≠ .off)
    (hd : ∀ capture, d ≠ .filtering capture) : Notes s (s.setDetector l d) :=
  .single (.detector l d hon fun capture h => absurd h (hd capture))

theorem notes_updItem (s : State) (tag : Tag) {f : Item → Item} (hf : ∀ i, (f i).tag = i.tag) :
    Notes s (s.updItem tag f) := .single (.item tag f hf)

theorem notes_applySizePolicy (s : State) (l : LaneId) (tag : Tag) (reason : BitVec 8) :
    Notes s (s.applySizePolicy l tag reason) := by
  unfold State.applySizePolicy
  split
  · exact .refl
  · exact .refl
  · split
    · exact .refl
    · refine (notes_updItem s tag fun i => ?_).trans (notes_countLane ..)
      unfold Item.force
      split <;> rfl

theorem notes_findLong (s : State) (l : LaneId) (tag : Tag) : Notes s (s.findLong l tag) := by
  unfold State.findLong
  refine .trans ?_ (notes_applySizePolicy ..)
  refine .trans ?_ (notes_report ..)
  exact notes_updItem s tag fun _ => rfl

theorem notes_checkLong (s : State) (l : LaneId) : Notes s (s.checkLong l) := by
  unfold State.checkLong
  split
  · exact .refl
  · exact notes_findLong ..

theorem notes_closeVerdict (s : State) (i : Item) : Notes s (s.closeVerdict i) := by
  unfold State.closeVerdict
  split
  · dsimp only
    refine .trans ?_ (notes_report ..)
    refine .trans ?_ (notes_countLane ..)
    exact notes_updItem s i.tag fun _ => rfl
  · exact notes_updItem s i.tag fun _ => rfl
  · exact notes_updItem s i.tag fun _ => rfl

theorem notes_fireDeadline (s : State) (tag : Tag) : Notes s (s.fireDeadline tag) := by
  unfold State.fireDeadline
  split
  · exact .refl
  · split
    · exact .refl
    · exact notes_closeVerdict ..

theorem notes_missAction (s : State) (n : StationId) (tag : Tag) : Notes s (s.missAction n tag) := by
  unfold State.missAction
  refine .trans ?_ (notes_report ..)
  exact notes_updItem s tag fun _ => rfl

/-- A detector with a link is not OFF, and not FILTERING without its link. -/
theorem unlink_of_link {d : Detector} {tag : Tag} (h : d.link = some tag) :
    d ≠ .off ∧ ∀ capture, d.unlink ≠ .filtering capture := by
  cases d <;> simp [Detector.link, Detector.unlink] at h ⊢

theorem notes_unlink (s : State) (l : LaneId) (tag : Tag) : Notes s (s.unlink l tag) := by
  unfold State.unlink
  split
  next h =>
    obtain ⟨hon, hd⟩ := unlink_of_link (d := s.lanes[l].detector) (tag := tag) (by simpa [State.linked] using h)
    have heq : s.updLane l (fun x => { x with detector := x.detector.unlink })
        = s.setDetector l s.lanes[l].detector.unlink := updLane_congr rfl
    rw [heq]
    exact notes_setDetector hon hd
  next => exact .refl

theorem notes_noteNoTrailing (s : State) (i : Item) : Notes s (s.noteNoTrailing i) := by
  unfold State.noteNoTrailing
  split
  · refine .trans ?_ (notes_unlink ..)
    refine .trans ?_ (notes_countLane ..)
    exact notes_updItem s i.tag fun _ => rfl
  · exact .refl

/-! ### Notes and the list

A note neither reads nor changes the list or the requests, so an entry may as well leave the list after it. -/

theorem Note.parts {s t : State} (h : Note s t) :
    t.list = s.list ∧ t.control = s.control ∧ t.stations = s.stations ∧ t.position = s.position := by
  cases h with
  | event r => rw [arrive_eq]; exact ⟨rfl, rfl, rfl, rfl⟩
  | lane l f hf => exact ⟨rfl, rfl, rfl, rfl⟩
  | detector l d hon hd => exact ⟨rfl, rfl, rfl, rfl⟩
  | item tag f hf => exact ⟨rfl, rfl, rfl, rfl⟩

theorem Notes.parts {s t : State} (h : Notes s t) :
    t.list = s.list ∧ t.control = s.control ∧ t.stations = s.stations ∧ t.position = s.position := by
  induction h with
  | refl => exact ⟨rfl, rfl, rfl, rfl⟩
  | tail _ hn ih =>
    obtain ⟨h1, h2, h3, h4⟩ := ih
    obtain ⟨g1, g2, g3, g4⟩ := hn.parts
    exact ⟨g1.trans h1, g2.trans h2, g3.trans h3, g4.trans h4⟩

theorem Note.of_updEntries {s u : State} {f : List Entry → List Entry} (h : Note (s.updEntries f) u) :
    ∃ t, Note s t ∧ u = t.updEntries f := by
  cases h with
  | event r => exact ⟨_, .event r, by simp only [arrive_eq]; rfl⟩
  | lane l g hg => exact ⟨_, .lane l g hg, rfl⟩
  | detector l d hon hd => exact ⟨_, .detector l d hon hd, rfl⟩
  | item tag g hg => exact ⟨_, .item tag g hg, rfl⟩

theorem Notes.of_updEntries {s u : State} {f : List Entry → List Entry} (h : Notes (s.updEntries f) u) :
    ∃ t, Notes s t ∧ u = t.updEntries f := by
  induction h with
  | refl => exact ⟨s, .refl, rfl⟩
  | tail _ hn ih =>
    obtain ⟨t, ht, rfl⟩ := ih
    obtain ⟨t', ht', rfl⟩ := hn.of_updEntries
    exact ⟨t', ht.tail ht', rfl⟩

/-! ### Items that leave the queue -/

/-- The notes of a retirement, before the record is freed (R59). -/
def State.noteRetired (s : State) (i : Item) : State :=
  let s1 := if i.final then s else s.closeVerdict i
  let s2 := (s1.noteNoTrailing i).countLane i.lane .retired
  match s2.findItem i.tag with
  | none => s2
  | some record => s2.reportRetired record

theorem notes_noteRetired (s : State) (i : Item) : Notes s (s.noteRetired i) := by
  have hclose : Notes s (if i.final then s else s.closeVerdict i) := by
    split
    · exact .refl
    · exact notes_closeVerdict ..
  have hcount := (hclose.trans (notes_noteNoTrailing _ i)).trans (notes_countLane _ i.lane .retired)
  unfold State.noteRetired
  dsimp only
  split
  · exact hcount
  · exact hcount.trans (notes_arrive ..)

theorem retireItem_none {s : State} {tag : Tag} (h : s.findItem tag = none) : s.retireItem tag = s := by
  simp [State.retireItem, h]

theorem retireItem_some {s : State} {tag : Tag} {i : Item} (h : s.findItem tag = some i) :
    s.retireItem tag = (s.noteRetired i).freeItem tag := by
  obtain ⟨-, rfl⟩ := findItem_some h
  simp only [State.retireItem, h, State.noteRetired] <;> rfl

theorem due_congr {s t : State} (h : t.position = s.position) : t.due = s.due := by
  funext e
  rw [State.due, State.due, h]

/-- A RETIRE entry taken out, with all that its retirement does (R59). -/
theorem works_retire {w : Worker} {s : State} {p : Entry → Bool} {e : Entry} {rest : List Entry}
    (ht : s.Takes p e rest) (hp : (s.control.op = .tracking ∧ p = s.due) ∨ p = Entry.reached)
    (hk : e.isRetire = true) : Works w s ((s.left rest).retireItem e.tag) := by
  cases hf : s.findItem e.tag with
  | none =>
    rw [retireItem_none (s := s.left rest) hf]
    exact .single (.drop p e rest ht fun _ => hf)
  | some i =>
    rw [retireItem_some (s := s.left rest) hf]
    obtain ⟨t, hnotes, heq⟩ := Notes.of_updEntries (notes_noteRetired (s.left rest) i)
    obtain ⟨hlist, hcontrol, -, hposition⟩ := hnotes.parts
    have hpt : (t.control.op = .tracking ∧ p = t.due) ∨ p = Entry.reached := by
      rwa [hcontrol, due_congr hposition]
    have htt : t.Takes p e rest := by rwa [State.Takes, hlist]
    rw [heq]
    exact (hnotes.works w).tail (.retire p e rest htt hpt hk)

theorem works_cancelItem (w : Worker) (s : State) (i : Item) : Works w s (s.cancelItem i) := by
  have hnotes : Notes (s.updEntries fun es => es.filter (fun e => !e.plannedFor i.tag)) _ :=
    (notes_unlink _ i.lane i.tag).trans ((notes_countLane _ i.lane .cancelled).trans
      (notes_report _ .itemCancelled (laneUnit i.lane) i.tag 0 0))
  obtain ⟨t, ht, heq⟩ := hnotes.of_updEntries
  unfold State.cancelItem
  dsimp only
  rw [heq]
  exact (ht.works w).tail (.cancel i.tag)

/-! ### Misses and failure -/

theorem updStation_updStation (s : State) (n : StationId) (f g : Station → Station) :
    (s.updStation n f).updStation n g = s.updStation n (fun x => g (f x)) :=
  congrArg (fun v => { s with stations := v }) (upd_upd s.stations n f g)

theorem failStation_eq (s : State) (n : StationId) (tag : Tag) :
    s.failStation n tag = (s.failing n).report .stationFailed (stationUnit n) tag 0 0 := by
  have hw : ((s.updStation n fun st => { st with runtime := .failed }).removeOnEntries n).updStation n
      (fun st => { st with watches := [] }) = s.withdraw n .failed :=
    updStation_updStation (s.removeOnEntries n) n (fun st => { st with runtime := .failed }) _
  have hg : ((s.withdraw n .failed).report .stationFailed (stationUnit n) tag 0 0).globals = s.globals := by
    rw [report_eq, arrive_eq]
    rfl
  unfold State.failStation State.failing
  dsimp only
  rw [hw, hg]
  split
  · simp only [report_eq, arrive_eq]
    rfl
  · rfl

theorem works_failStation {w : Worker} {s : State} {n : StationId} (tag : Tag)
    (hr : s.stations[n].runtime = .enabled) : Works w s (s.failStation n tag) := by
  rw [failStation_eq]
  exact (Relation.ReflTransGen.single (.fail n hr)).trans ((notes_report ..).works w)

/-- The first steps of a miss: CONFIRM_MISSING, CONFIRM_FAIL and the miss count (R130). -/
def State.noteMiss (s : State) (n : StationId) (w : Watch) (aux : Word) : State :=
  let s1 := s.report .confirmMissing (stationUnit n) w.tag aux 0
  let s2 := match s1.findInLane w.tag w.lane with
            | none => s1
            | some _ => s1.updItem w.tag (fun i => { i with confirmFail := true })
  s2.updStation n (fun st => { st with misses := raiseMisses st.misses })

theorem declareMissed_eq (s : State) (n : StationId) (w : Watch) (aux : Word) :
    s.declareMissed n w aux =
      if (s.noteMiss n w aux).stations[n].atLimit then (s.noteMiss n w aux).failStation n w.tag
      else s.noteMiss n w aux := rfl

/-- An update of one station that a work may bring about. -/
theorem works_updStation {w : Worker} {s : State} {n : StationId} {f : Station → Station}
    (hc : ∀ x, (f x).config = x.config ∧ (f x).runtime = x.runtime)
    (hp : s.stations[n].pulse = none → (f s.stations[n]).pulse = none)
    (hw : (f s.stations[n]).watches.length ≤ s.stations[n].watches.length) : Works w s (s.updStation n f) := by
  refine .single (.stations _ fun m => ?_)
  rw [upd_get]
  split
  next h =>
    subst h
    exact ⟨(hc _).1, (hc _).2, hp, hw⟩
  next => exact ⟨rfl, rfl, id, le_refl _⟩

theorem works_noteMiss (k : Worker) (s : State) (n : StationId) (w : Watch) (aux : Word) :
    Works k s (s.noteMiss n w aux) := by
  have hreport := notes_report s .confirmMissing (stationUnit n) w.tag aux 0
  unfold State.noteMiss
  dsimp only
  refine ReflTransGen.trans (Notes.works k ?_)
    (works_updStation (fun _ => ⟨rfl, rfl⟩) id (le_refl _))
  split
  · exact hreport
  · refine hreport.trans ?_
    exact notes_updItem _ w.tag fun _ => rfl

theorem atLimit_runtime {st : Station} (h : st.atLimit = true) : st.runtime = .enabled := by
  simp only [Station.atLimit, Bool.and_eq_true, beq_iff_eq] at h
  exact h.1.1

theorem works_declareMissed (k : Worker) (s : State) (n : StationId) (w : Watch) (aux : Word) :
    Works k s (s.declareMissed n w aux) := by
  rw [declareMissed_eq]
  split
  next h => exact (works_noteMiss k s n w aux).trans (works_failStation w.tag (atLimit_runtime h))
  next => exact works_noteMiss k s n w aux

theorem works_missHead (k : Worker) (s : State) (n : StationId) (aux : Word) : Works k s (s.missHead n aux) := by
  unfold State.missHead
  split
  · exact .refl
  next w rest h =>
    refine .trans ?_ (works_declareMissed ..)
    exact works_updStation (fun _ => ⟨rfl, rfl⟩) id (by rw [h]; exact Nat.le_succ _)

theorem works_expireDue (k : Worker) (fuel : Nat) (n : StationId) (s : State) : Works k s (State.expireDue fuel n s) :=
  expireDue_induction (P := Works k s) (fun t h => h.trans (works_missHead k t n 0)) fuel .refl

theorem updStation_get_same (s : State) (n : StationId) (f : Station → Station) :
    (s.updStation n f).stations[n] = f s.stations[n] := upd_get_same ..

/-- The head watch may as well leave its queue after the miss is noted. -/
theorem noteMiss_updStation (s : State) (n : StationId) (w : Watch) (aux : Word) (left : List Watch) :
    (s.updStation n fun st => { st with watches := left }).noteMiss n w aux
      = (s.noteMiss n w aux).updStation n fun st => { st with watches := left } := by
  have hreport : (s.updStation n fun st => { st with watches := left }).report .confirmMissing (stationUnit n) w.tag aux 0
      = (s.report .confirmMissing (stationUnit n) w.tag aux 0).updStation n fun st => { st with watches := left } := by
    simp only [report_eq, arrive_eq]
    rfl
  have hfind (t : State) (f : Station → Station) : (t.updStation n f).findInLane w.tag w.lane
      = t.findInLane w.tag w.lane := rfl
  unfold State.noteMiss
  dsimp only
  rw [hreport, hfind]
  split <;> simp only [State.updStation, State.updItem, upd_upd]

theorem noteMiss_station (s : State) (n : StationId) (w : Watch) (aux : Word) :
    (s.noteMiss n w aux).stations[n]
      = { s.stations[n] with misses := raiseMisses s.stations[n].misses } := by
  unfold State.noteMiss
  dsimp only
  rw [updStation_get_same]
  split <;> simp [report_eq, arrive_eq]

theorem withdraw_runtime (s : State) (n : StationId) (r : Runtime) : (s.withdraw n r).stations[n].runtime = r := by
  rw [State.withdraw, updStation_get_same]

theorem failing_runtime (s : State) (n : StationId) : (s.failing n).stations[n].runtime = .failed := by
  unfold State.failing
  split <;> exact withdraw_runtime s n .failed

theorem report_stations (s : State) (kind : EventKind) (unit : BitVec 4) (tag : Tag) (auxA auxB : Word) :
    (s.report kind unit tag auxA auxB).stations = s.stations := by
  rw [report_eq, arrive_eq]

/-- A watch started with four pending: the head is overtaken (R125). -/
theorem works_startWatch_full {k : Worker} {s : State} {n : StationId} (tag : Tag) (l : LaneId)
    (hfull : 4 ≤ s.stations[n].watches.length) : Works k s (s.startWatch n tag l) := by
  have hroom : ¬ s.stations[n].watches.length < Config.watchDepth := not_lt.2 hfull
  unfold State.startWatch
  rw [if_neg hroom]
  dsimp only
  split
  next henabled =>
    obtain ⟨w, rest, hw⟩ := List.exists_cons_of_length_pos (by omega : 0 < s.stations[n].watches.length)
    have hmiss : s.missHead n 1 = (s.updStation n fun st => { st with watches := rest }).declareMissed n w 1 := by
      simp only [State.missHead, hw]
    rw [hmiss, declareMissed_eq, noteMiss_updStation] at henabled ⊢
    have hst := noteMiss_station s n w 1
    split
    next hlimit =>
      rw [if_pos hlimit, failStation_eq, report_stations, failing_runtime] at henabled
      contradiction
    next hlimit =>
      rw [if_neg hlimit, updStation_get_same, hst] at henabled
      have hover := Work.overtake (w := k) (s := s.noteMiss n w 1) n
        { tag := tag, lane := l, timeLeft := s.stations[n].config.window }
        (by rw [hst]; simpa using henabled) (by rw [hst]; exact hfull)
      have heq : ((s.noteMiss n w 1).updStation n fun st => { st with watches := rest }).appendWatch n tag l
          = (s.noteMiss n w 1).updStation n (fun st => { st with
              watches := st.watches.tail ++ [{ tag := tag, lane := l, timeLeft := s.stations[n].config.window }] }) := by
        rw [State.appendWatch, updStation_updStation, State.updStation, State.updStation]
        congr 1
        refine upd_congr ?_
        simp only [hst, hw, List.tail_cons]
      rw [heq]
      exact (works_noteMiss k s n w 1).tail hover
  next => exact works_missHead k s n 1

/-! ### A firing -/

theorem placeHolder_watches {s t : State} {n : StationId} {fire : Pos} {i : Item} (h : s.placeHolder n fire i = some t)
    (m : StationId) : t.stations[m].watches = s.stations[m].watches ∧ t.stations[m].runtime = s.stations[m].runtime := by
  obtain ⟨pos, r, rfl, -⟩ | rfl := placeHolder_cases h
  · exact ⟨rfl, rfl⟩
  · exact ⟨upd_get_proj n m Station.watches rfl, upd_get_proj n m Station.runtime rfl⟩

/-- An ON entry taken out and handed to its station (R74, R98, R99). -/
theorem works_fireOn {w : Worker} {s : State} {e : Entry} {rest : List Entry} {n : StationId}
    (ho : s.control.op = .tracking) (ht : s.Takes s.due e rest) (hk : e.kind = .on n) :
    Works w s ((s.left rest).fireOn n e.fire e.tag) := by
  have hdrop : Works w s (s.left rest) :=
    .single (.drop s.due e rest ht fun h => by simp [Entry.isRetire, hk] at h)
  unfold State.fireOn
  split
  · exact hdrop
  next i hi =>
    split
    · split
      · exact hdrop
      next placed hp =>
        unfold State.markAndWatch
        dsimp only
        have hmark (t : State) : Works w t (t.updItem i.tag
            fun x => { x with fired := x.fired ||| BitVec.twoPow 16 n.val }) :=
          Notes.works w (notes_updItem t i.tag fun _ => rfl)
        have hplaced := (Relation.ReflTransGen.single (Work.activate (w := w) e rest n i placed ho ht hk hp)).trans
          (hmark placed)
        split
        · exact hplaced
        · by_cases hroom : s.stations[n].watches.length < 4
          · have hroom' : placed.stations[n].watches.length < Config.watchDepth := by
              rw [(placeHolder_watches hp n).1]
              exact hroom
            have happend := (Relation.ReflTransGen.single
              (Work.activateWatch (w := w) e rest n i placed ho ht hk hp hroom)).trans (hmark _)
            rw [State.startWatch, if_pos (by exact hroom')]
            exact happend
          · refine hplaced.trans (works_startWatch_full i.tag i.lane ?_)
            have hfull : 4 ≤ placed.stations[n].watches.length := by
              rw [(placeHolder_watches hp n).1]
              exact not_lt.1 hroom
            exact hfull
    · exact hdrop

theorem isRetire_iff {e : Entry} : e.isRetire = true ↔ e.kind = .retire := by simp [Entry.isRetire]

/-- An entry at the tracking position fired (R71 to R74). -/
theorem works_fireEntry {w : Worker} {s : State} {e : Entry} {rest : List Entry}
    (ho : s.control.op = .tracking) (ht : s.Takes s.due e rest) : Works w s ((s.left rest).fireEntry e) := by
  have hdrop (hk : e.kind ≠ .retire) : Works w s (s.left rest) :=
    .single (.drop s.due e rest ht fun h => absurd (isRetire_iff.1 h) hk)
  unfold State.fireEntry
  split
  next hk => exact hdrop (by simp [hk])
  next hk => exact (hdrop (by simp [hk])).trans ((notes_fireDeadline ..).works w)
  next n hk => exact works_fireOn ho ht hk
  next hk => exact works_retire ht (.inl ⟨ho, rfl⟩) (isRetire_iff.2 hk)

theorem works_fireDue (w : Worker) (fuel : Nat) {s : State} (ho : s.control.op = .tracking) :
    Works w s (State.fireDue fuel s) := by
  refine fireDue_induction (P := Works w s) (fun t e rest h ht => ?_) fuel .refl
  exact h.trans (works_fireEntry (h.frame.op.trans ho) ht)

theorem works_listAdvance (w : Worker) (s : State) : Works w s s.listAdvance := by
  unfold State.listAdvance
  split
  next => exact .refl
  next ho => exact works_fireDue w _ ho
  next ho => exact .single (.mark ho)

/-- A reached entry taken in the catch-up (R82, R83). -/
theorem works_catchEntry {w : Worker} {s : State} {e : Entry} {rest : List Entry}
    (ht : s.Takes Entry.reached e rest) : Works w s ((s.left rest).catchEntry e) := by
  have hdrop (hk : e.kind ≠ .retire) : Works w s (s.left rest) :=
    .single (.drop Entry.reached e rest ht fun h => absurd (isRetire_iff.1 h) hk)
  unfold State.catchEntry
  split
  next hk => exact hdrop (by simp [hk])
  next hk => exact (hdrop (by simp [hk])).trans ((notes_fireDeadline ..).works w)
  next n hk => exact (hdrop (by simp [hk])).trans ((notes_missAction ..).works w)
  next hk => exact works_retire ht (.inr rfl) (isRetire_iff.2 hk)

theorem works_catchUpLoop (w : Worker) (fuel taken missed : Nat) (s : State) :
    Works w s (State.catchUpLoop fuel taken missed s).1 :=
  catchUpLoop_induction (P := Works w s) (fun _ _ _ h ht => h.trans (works_catchEntry ht)) fuel taken missed .refl

/-! ### The lane detectors -/

theorem State.AcceptsAt.on {s : State} {w : Worker} {l : LaneId} {pos : Pos} (h : s.AcceptsAt w l pos) :
    s.lanes[l].detector ≠ .off := by
  obtain ⟨-, hd⟩ | ⟨-, -, hd⟩ := h
  · exact hd.trans_ne (by simp)
  · exact hd

theorem countLane_detector (s : State) (l m : LaneId) (n : CounterName) :
    (s.countLane l n).lanes[m].detector = s.lanes[m].detector := upd_get_proj l m Lane.detector rfl

theorem countLane_config (s : State) (l m : LaneId) (n : CounterName) :
    (s.countLane l n).lanes[m].config = s.lanes[m].config := upd_get_proj l m Lane.config rfl

theorem blanked_congr {s t : State} (h : Frame s t) : t.blanked = s.blanked := by
  simp only [State.blanked, State.reverse, h.op, h.position]

theorem works_refuseAdmission {w : Worker} {s : State} {l : LaneId} (reason : Word) (hw : w ≠ .list)
    (hon : s.lanes[l].detector ≠ .off) : Works w s (s.refuseAdmission l reason) := by
  have hset : Works w s (((s.countLane l .refused).report .itemRefused (laneUnit l) 0 reason 0).setDetector l
      (.occupied none none)) := by
    refine Notes.works w ((notes_countLane ..).trans ((notes_report ..).trans (notes_setDetector ?_ (by simp))))
    rw [report_eq, arrive_eq]
    exact (countLane_detector s l l .refused).trans_ne hon
  unfold State.refuseAdmission
  dsimp only
  split
  · exact hset
  · exact hset.tail (.request .queueFull hw)

theorem works_requestAdmission {w : Worker} {s : State} {l : LaneId} {pos : Pos} (hw : w ≠ .list)
    (hb : s.blanked = false) (hpos : s.AcceptsAt w l pos) : Works w s (s.requestAdmission l pos) := by
  unfold State.requestAdmission
  split
  next tag hq =>
    have hadmit := (Relation.ReflTransGen.single (Work.enrol l pos tag hw hb hpos hq)).trans
      ((notes_report _ .itemAdmitted (laneUnit l) tag (lo pos) (hi pos)).works w)
    rw [admitItem_eq_enroll]
    refine hadmit.trans (Notes.works w ((notes_countLane ..).trans
      ((notes_setDetector ?_ (by simp)).trans (notes_checkLong ..))))
    rw [report_eq, arrive_eq, enroll_eq]
    exact (countLane_detector _ l l .admitted).trans_ne hpos.on
  · exact works_refuseAdmission 1 hw hpos.on
  · exact works_refuseAdmission 2 hw hpos.on

theorem works_acceptLeading {w : Worker} {s : State} {l : LaneId} {pos : Pos} (hw : w ≠ .list)
    (hb : s.blanked = false) (hpos : s.AcceptsAt w l pos) : Works w s (s.acceptLeading l pos) := by
  have hcount : Works w s (s.countLane l .leading) := (notes_countLane ..).works w
  have hpos' : (s.countLane l .leading).AcceptsAt w l pos := by
    unfold State.AcceptsAt
    rw [countLane_detector, countLane_config]
    exact hpos
  unfold State.acceptLeading
  dsimp only
  refine ReflTransGen.trans ?_ (Notes.works w (.single (.lane l _ fun _ => ⟨rfl, rfl⟩)))
  split
  · refine hcount.trans (Notes.works w ((notes_countLane ..).trans (notes_setDetector ?_ (by simp))))
    exact (countLane_detector ..).trans_ne hpos'.on
  · exact hcount.trans (works_requestAdmission hw ((blanked_congr hcount.frame).trans hb) hpos')

theorem notes_shortAtTrailing (s : State) (l : LaneId) (tag : Tag) (length : Pos) :
    Notes s (s.shortAtTrailing l tag length) := by
  unfold State.shortAtTrailing
  split
  · refine .trans ?_ (notes_applySizePolicy ..)
    exact notes_updItem s tag fun _ => rfl
  · exact .refl

theorem notes_longAtTrailing (s : State) (l : LaneId) (i : Item) (length : Pos) :
    Notes s (s.longAtTrailing l i length) := by
  unfold State.longAtTrailing
  split
  · exact notes_findLong ..
  · exact .refl

/-- The records of a trailing edge, before the list is re-keyed (R26). -/
theorem notes_findings (s : State) (l : LaneId) (i : Item) (pos : Pos) :
    Notes s (((s.storeTrailing i pos).longAtTrailing l i (pos - i.leading)).shortAtTrailing l i.tag (pos - i.leading)) := by
  refine .trans ?_ (notes_shortAtTrailing ..)
  refine .trans ?_ (notes_longAtTrailing ..)
  exact notes_updItem s i.tag fun _ => rfl

theorem works_reportTrailing {w : Worker} {s : State} (l : LaneId) (i : Item) (pos : Pos) (hb : s.blanked = false) :
    Works w s (s.reportTrailing l i pos) := by
  have hnotes := (notes_findings s l i pos).works w
  have hrekey := hnotes.tail (.rekey i.tag pos ((blanked_congr hnotes.frame).trans hb))
  exact hrekey.trans ((notes_report ..).works w)

theorem applySizePolicy_detector (s : State) (l m : LaneId) (tag : Tag) (reason : BitVec 8) :
    (s.applySizePolicy l tag reason).lanes[m].detector = s.lanes[m].detector := by
  unfold State.applySizePolicy
  split
  · rfl
  · rfl
  · split
    · rfl
    · exact countLane_detector ..

theorem report_lanes (s : State) (kind : EventKind) (unit : BitVec 4) (tag : Tag) (auxA auxB : Word) :
    (s.report kind unit tag auxA auxB).lanes = s.lanes := by
  rw [report_eq, arrive_eq]

theorem longAtTrailing_detector (s : State) (l m : LaneId) (i : Item) (length : Pos) :
    (s.longAtTrailing l i length).lanes[m].detector = s.lanes[m].detector := by
  unfold State.longAtTrailing
  split
  · rw [State.findLong, applySizePolicy_detector, report_lanes, updItem_lanes]
  · rfl

theorem shortAtTrailing_detector (s : State) (l m : LaneId) (tag : Tag) (length : Pos) :
    (s.shortAtTrailing l tag length).lanes[m].detector = s.lanes[m].detector := by
  unfold State.shortAtTrailing
  split
  · rw [applySizePolicy_detector, updItem_lanes]
  · rfl

theorem reportTrailing_detector (s : State) (l m : LaneId) (i : Item) (pos : Pos) :
    (s.reportTrailing l i pos).lanes[m].detector = s.lanes[m].detector := by
  unfold State.reportTrailing
  dsimp only
  rw [report_lanes, rekey_lanes, shortAtTrailing_detector, longAtTrailing_detector, storeTrailing_lanes]

theorem acceptTrailing_none {s : State} {link : Option Tag} (l : LaneId) (pos : Pos)
    (h : link.bind s.findItem = none) : s.acceptTrailing l link pos = s.setDetector l .clear := by
  simp only [State.acceptTrailing, h]

theorem acceptTrailing_some {s : State} {link : Option Tag} {i : Item} (l : LaneId) (pos : Pos)
    (h : link.bind s.findItem = some i) :
    s.acceptTrailing l link pos = (s.reportTrailing l i pos).setDetector l .clear := by
  simp only [State.acceptTrailing, h]

theorem works_acceptTrailing {w : Worker} {s : State} {l : LaneId} (link : Option Tag) (pos : Pos)
    (hb : s.blanked = false) (hon : s.lanes[l].detector ≠ .off) : Works w s (s.acceptTrailing l link pos) := by
  cases hf : link.bind s.findItem with
  | none =>
    rw [acceptTrailing_none l pos hf]
    exact Notes.works w (notes_setDetector hon (by simp))
  | some i =>
    have hon' : (s.reportTrailing l i pos).lanes[l].detector ≠ .off := (reportTrailing_detector s l l i pos).trans_ne hon
    rw [acceptTrailing_some l pos hf]
    exact (works_reportTrailing l i pos hb).trans (Notes.works w (notes_setDetector hon' (by simp)))

/-- A lane that drops its trailing candidate, and the LONG finding made then (R25, R28). -/
theorem notes_dropCandidate {s : State} {l : LaneId} (link : Option Tag) (hon : s.lanes[l].detector ≠ .off) :
    Notes s ((s.setDetector l (.occupied link none)).checkLong l) :=
  (notes_setDetector hon (by simp)).trans (notes_checkLong ..)

/-- A lane that captures, at the tracking position (R20, R31). -/
theorem notes_capture {s : State} {l : LaneId} (hon : s.lanes[l].detector ≠ .off)
    (hfilter : s.lanes[l].config.filter ≠ 0 ∨ ∃ capture, s.lanes[l].detector = .filtering capture) (hactive : s.inputActive l = true) :
    Notes s (s.setDetector l (.filtering s.position.tracking)) :=
  .single (.detector l _ hon fun _ h => ⟨(Detector.filtering.inj h).symm, hactive, hfilter⟩)

theorem notes_glitch {s : State} {l : LaneId} (hon : s.lanes[l].detector ≠ .off) :
    Notes s ((s.countLane l .glitches).setDetector l .clear) :=
  (notes_countLane ..).trans (notes_setDetector ((countLane_detector ..).trans_ne hon) (by simp))

theorem works_laneInput (s : State) (l : LaneId) : Works .lane s (s.laneInput l) := by
  unfold State.laneInput
  split
  · exact .refl
  next hb =>
    have hb : s.blanked = false := by simpa using hb
    dsimp only
    split
    · exact .refl
    next hd =>
      split
      · exact .refl
      · exact Notes.works _ (notes_setDetector (hd.trans_ne (by simp)) (by simp))
    next hd =>
      have hon : s.lanes[l].detector ≠ .off := hd.trans_ne (by simp)
      split
      next hactive =>
        split
        next hfilter => exact works_acceptLeading (by simp) hb (.inr ⟨hfilter, rfl, hon⟩)
        next hfilter => exact Notes.works _ (notes_capture hon (.inl hfilter) hactive)
      next => exact .refl
    next hd =>
      split
      · exact .refl
      · exact Notes.works _ (notes_glitch (hd.trans_ne (by simp)))
    next link _ hd =>
      have hon : s.lanes[l].detector ≠ .off := hd.trans_ne (by simp)
      split
      · exact Notes.works _ (notes_dropCandidate link hon)
      · split
        · exact works_acceptTrailing link _ hb hon
        · exact Notes.works _ (notes_setDetector hon (by simp))

theorem laneDue_unblanked {s : State} {l : LaneId} (h : s.laneDue l = true) : s.blanked = false := by
  simp only [State.laneDue, Bool.and_eq_true, Bool.not_eq_true'] at h
  exact h.1

theorem works_laneAdvance (s : State) (l : LaneId) : Works .advance s (s.laneAdvance l) := by
  unfold State.laneAdvance
  split
  next hdue =>
    have hb := laneDue_unblanked hdue
    split
    next hd => exact works_acceptLeading (by simp) hb (.inl ⟨rfl, hd⟩)
    next hd => exact works_acceptTrailing _ _ hb (hd.trans_ne (by simp))
    next => exact (notes_checkLong s l).works _
    · exact .refl
    · exact .refl
    · exact .refl
  next => exact .refl

theorem works_laneResample (s : State) (l : LaneId) : Works .lane s (s.laneResample l) := by
  unfold State.laneResample
  split
  · exact .refl
  next hb =>
    have hb : s.blanked = false := by simpa using hb
    dsimp only
    split
    · exact .refl
    next hd =>
      split
      · exact .refl
      · exact Notes.works _ (notes_setDetector (hd.trans_ne (by simp)) (by simp))
    next hd =>
      have hon : s.lanes[l].detector ≠ .off := hd.trans_ne (by simp)
      split
      next hactive =>
        split
        next hfilter => exact works_acceptLeading (by simp) hb (.inr ⟨hfilter, rfl, hon⟩)
        next hfilter => exact Notes.works _ (notes_capture hon (.inl hfilter) hactive)
      next => exact .refl
    next capture hd =>
      have hon : s.lanes[l].detector ≠ .off := hd.trans_ne (by simp)
      split
      next hactive => exact Notes.works _ (notes_capture hon (.inr ⟨capture, hd⟩) hactive)
      next => exact Notes.works _ (notes_glitch hon)
    next link _ hd =>
      have hon : s.lanes[l].detector ≠ .off := hd.trans_ne (by simp)
      split
      · exact Notes.works _ (notes_dropCandidate link hon)
      · exact works_acceptTrailing link _ hb hon

end Sys2Proof.Machine
end

section
/-! PROOFS. Operating control, the free orders and the tick as chains of changes; and what each command does, said once:
the requests on their way are put by, the command has its one effect, and then the requests arrive (R143). -/

namespace Sys2Proof.Machine

/-! ### Chains -/

theorem chain_raiseInt (s : State) (bits : BitVec 4) : Chain s (s.raiseInt bits) :=
  Settles.chain (.book s.control.requests _ s.readData s.choices s.pending)

theorem chain_withRequests (s : State) (cs : List Cause) : Chain s (s.withRequests cs) :=
  Settles.chain (.book cs s.host s.readData s.choices s.pending)

theorem chain_withChoices (s : State) (n : Nat) : Chain s { s with choices := n } :=
  Settles.chain (.book s.control.requests s.host s.readData n s.pending)

theorem chain_countChoice {α : Type} (s : State) (xs : List α) : Chain s (s.countChoice xs) := by
  unfold State.countChoice
  split
  · exact chain_withChoices s (s.choices + 1)
  · exact .refl

theorem haltEntry_eq (s : State) (c : Cause) :
    s.haltEntry c = ((s.haltTaken c).report .halted 0 0 c.code ((s.control.causeMask ||| c.bit).zeroExtend 16)).raiseInt
      intHalt := rfl

theorem chain_takeHalt (s : State) (c : Cause) : Chain s (s.takeHalt c) := by
  unfold State.takeHalt
  split
  next => exact .refl
  next ho =>
    rw [haltEntry_eq]
    refine .trans (Settles.chain (.halt c ho)) ?_
    exact (Works.chain (Notes.works .list (notes_report ..))).trans (chain_raiseInt ..)
  next ho => exact Settles.chain (.again c ho)

theorem chain_takeRequests (s : State) (mayWait : Bool) (fuel : Nat) : Chain s (s.takeRequests mayWait fuel) :=
  takeRequests_induction (P := Chain s) (fun t cs h => h.trans (chain_withRequests t cs))
    (fun t xs h => h.trans (chain_countChoice t xs)) (fun t c h => h.trans (chain_takeHalt t c)) mayWait fuel .refl

theorem chain_settleHalts (s : State) : Chain s s.settleHalts := chain_takeRequests ..

theorem chain_arriveHalts (s : State) : Chain s s.arriveHalts := by
  unfold State.arriveHalts
  split
  · exact chain_withRequests ..
  · exact chain_takeRequests ..
  · exact chain_takeRequests ..

theorem chain_inFreeOrder {α : Type} {act : α → State → State} (ha : ∀ x s, Chain s (act x s)) (fuel : Nat)
    (xs : List α) (s : State) : Chain s (inFreeOrder act fuel xs s) :=
  inFreeOrder_induction (P := Chain s) (fun t ys h => h.trans (chain_countChoice t ys))
    (fun x t h => h.trans (ha x t)) fuel xs .refl

/-- The end of a time pulse is a work (R103). -/
theorem works_endPulse (w : Worker) (s : State) (n : StationId) : Works w s (s.endPulse n) :=
  works_updStation (fun _ => ⟨rfl, rfl⟩) (fun _ => rfl) (le_refl _)

theorem chain_runTask (s : State) (task : Task) : Chain s (s.runTask task) := by
  cases task with
  | lane l => exact (works_laneAdvance s l).chain
  | list => exact (works_listAdvance .list s).chain
  | pulse n => exact (works_endPulse .list s n).chain
  | halt c => exact chain_takeHalt s c

theorem chain_runTasks (fuel : Nat) (work : List Task) (s : State) : Chain s (State.runTasks fuel work s) :=
  runTasks_induction (P := Chain s) (fun t xs h => h.trans (chain_countChoice t xs))
    (fun t task h => h.trans (chain_runTask t task)) (fun t cs h => h.trans (chain_withRequests t cs)) fuel work .refl

theorem foldl_induction {α : Type} {P : State → Prop} {act : State → α → State} (ha : ∀ s x, P s → P (act s x))
    (xs : List α) {s : State} (h : P s) : P (xs.foldl act s) := by
  induction xs generalizing s with
  | nil => exact h
  | cons x rest ih => exact ih (ha s x h)

theorem chain_resampleAll (s : State) : Chain s s.resampleAll := by
  refine .trans ?_ (chain_inFreeOrder (fun l t => (works_laneResample t l).chain) _ _ _)
  exact foldl_induction (P := Chain s) (fun t l h => h.trans (works_laneResample t l).chain) _ .refl

theorem chain_endDuePulses (s : State) : Chain s s.endDuePulses := by
  unfold State.endDuePulses
  dsimp only
  split
  · exact foldl_induction (P := Chain s) (fun t n h => h.trans (works_endPulse .list t n).chain) _ .refl
  · exact chain_runTasks ..

theorem chain_tick (s : State) : Chain s s.tick := by
  refine .trans ?_ (chain_endDuePulses _)
  refine .trans ?_ (chain_inFreeOrder (fun n t => (works_expireDue .list _ n t).chain) _ _ _)
  refine Works.chain (w := .list) (.single (.stations _ fun n => ?_))
  rw [mapAll_get]
  exact ⟨rfl, rfl, fun h => by simp only [Station.countDown, h, Option.map_none],
    le_of_eq (List.length_map ..)⟩

/-- The state with the phase of the divider at `phase`. -/
def State.atPhase (s : State) (phase : BitVec 8) : State := { s with globals := { s.globals with tickPhase := phase } }

/-- An idle step in a part that runs: requests arrive, the phase moves, and what follows is a chain of changes. -/
theorem clockPeriod_chain {s : State} (h : s.running = true) :
    ∃ phase, Chain (s.arriveHalts.atPhase phase) s.clockPeriod := by
  rw [State.clockPeriod, if_pos h, State.clock]
  split
  · exact ⟨0, (chain_tick _).trans (chain_arriveHalts _)⟩
  · exact ⟨_, chain_arriveHalts _⟩

/-! ### What a command does -/

/-- The counter and the tracking position after an advance (R5, R8). -/
def State.stepped (s : State) : State := s.setPositions (s.position.counter + 1) (s.position.tracking + 1)

/-- The one effect of a command, beside what it leaves in the register window and the word last read; the supply and
reset commands are apart. -/
inductive Deed : Instr → State → State → Prop
  /-- blocks work, and raise no request -/
  | quiet {c : Instr} {s t : State} (h : Works .list s t) (hr : t.control.requests = s.control.requests) : Deed c s t
  | expiry (n : StationId) {s : State} : Deed (.watchExpiry n) s (s.missHead n 0)
  | edge (input : InputId) (rising : Bool) {s t : State} (h : Works .list (s.atCfmEdge input rising) t)
      (hr : t.control.requests = s.control.requests) : Deed (.confirmEdge input rising) s t
  | input (l : LaneId) (level : Level) {s : State} (h : s.pins.det[l] ≠ level) :
      Deed (.detInputChange l level) s ((s.setDet l level).laneInput l)
  | holdAgain {s : State} (h : s.control.hldAsserted = true) : Deed .hldAssert s (s.setHld false)
  | hold {s : State} (h : s.control.hldAsserted = false) :
      Deed .hldAssert s (((s.setHld false).sampleHld true).takeHalt .holdInput)
  | release {s : State} : Deed .hldRelease s ((s.setHld true).sampleHld false)
  | noStep (a b : Level) {s : State} : Deed (.encoderTransition a b) s (s.atPair a b)
  | error (a b : Level) {s : State} : Deed (.encoderTransition a b) s (s.atPair a b).encoderError
  | setupStep (a b : Level) {s : State} (counter : Pos) (ho : s.control.op = .setup) :
      Deed (.encoderTransition a b) s ((s.atPair a b).moveInSetup counter)
  | advance (a b : Level) {s : State} (ho : s.control.op ≠ .setup) (hr : s.reverse = 0) :
      Deed (.encoderTransition a b) s (s.atPair a b).stepped.takeAdvance
  | shift (a b : Level) {s : State} (counter : Pos) (ho : s.control.op ≠ .setup) :
      Deed (.encoderTransition a b) s ((s.atPair a b).moveCounter counter)
  | overReverse (a b : Level) {s : State} (counter : Pos) (ho : s.control.op = .tracking) :
      Deed (.encoderTransition a b) s (((s.atPair a b).moveCounter counter).requestHalt .overReverse)
  | latch {c : Instr} {s : State} (posHigh trackHigh : Word) :
      Deed c s { s with position := { s.position with posHigh := posHigh, trackHigh := trackHigh } }
  | popWord {c : Instr} {s : State} : Deed c s s.popEventWord
  | rewind {c : Instr} {s : State} : Deed c s s.writeEventData
  | threshold {c : Instr} (value : Word) {s : State} :
      Deed c s { s with events := { s.events with threshold := heldThreshold value } }
  | globals (g : GlobalWords) {s : State} (ho : s.control.op = .setup) (hg : g.tickDiv ≠ 0) :
      Deed .setGlobal s (s.writeGlobals g)
  | laneConfig (l : LaneId) (c : LaneConfig) {s : State} (ho : s.control.op = .setup) (hc : c.Sound) :
      Deed .setLane s (s.updLane l fun x => { x with config := c })
  | stationConfig {i : Instr} (n : StationId) (c : StationConfig) {s : State} (ho : s.control.op = .setup)
      (hc : s.stations[n].config.Sound → c.Sound) : Deed i s (s.updStation n fun x => { x with config := c })
  | output {c : Instr} (o : OutputId) (f : OutputLine → OutputLine) {s : State} (ho : s.control.op = .setup)
      (hf : ∀ x, (f x).held = x.held) : Deed c s (s.updOutput o f)
  | preset (value : Pos) {s : State} (ho : s.control.op = .setup) : Deed .presetPosition s (s.moveInSetup value)
  | start {s : State} (hrun : s.running = true) (ho : s.control.op = .setup) (hhld : s.control.hldAsserted = false)
      (hchecks : s.startFailure = none) : Deed .start s s.beginTracking
  | stop {s : State} (ho : s.control.op ≠ .setup) : Deed .stop s s.returnToSetup
  | reinit {s : State} : Deed .reinit s s.returnToSetup.clearRun
  | halt {s : State} (ho : s.control.op = .tracking) : Deed .halt s (s.takeHalt .host)
  | resume {s : State} (ho : s.control.op = .halted) (hhld : s.control.hldAsserted = false) :
      Deed .resume s s.resumeRun.state
  | clearFailed (n : StationId) {s : State} (ho : s.control.op ≠ .setup) (hr : s.stations[n].runtime = .failed) :
      Deed .stationEnable s (s.updStation n fun x => { x with runtime := .disabled })
  | switchOn (n : StationId) {s : State} (ho : s.control.op ≠ .setup) (hchecks : s.enableFailure n = none) :
      Deed .stationEnable s (s.updStation n fun x => { x with runtime := .enabled, misses := 0 })

/-- What the register window and the word last read hold besides is no part of a deed. -/
def State.SameButWindow (s t : State) : Prop := ∃ host readData, t = { s with host := host, readData := readData }

theorem State.SameButWindow.chain {s t : State} (h : s.SameButWindow t) : Chain s t := by
  obtain ⟨host, readData, rfl⟩ := h
  exact Settles.chain (.book s.control.requests host readData s.choices s.pending)

/-- From `s` command `c` has an effect that leaves `t`: a deed, and what it leaves in the window. -/
def Does (c : Instr) (s t : State) : Prop := ∃ u, Deed c s u ∧ u.SameButWindow t

theorem Does.of_deed {c : Instr} {s t : State} (h : Deed c s t) : Does c s t := ⟨t, h, t.host, t.readData, rfl⟩

theorem Does.nothing (c : Instr) (s : State) : Does c s s := .of_deed (.quiet .refl rfl)

theorem Does.note {c : Instr} {s t : State} (h : Notes s t) : Does c s t :=
  .of_deed (.quiet (h.works .list) (congrArg Control.requests h.parts.2.1))

/-! #### The owners' judgements -/

/-- What an owner does in a part that runs, when its command is in flight. -/
def Judges (c : Instr) (judge : State → Answer) : Prop := ∀ s, s.running = true → Does c s (judge s).state

theorem inSetup_judges {c : Instr} {judge : State → Answer} (h : ∀ s, s.running = true → s.control.op = .setup → Does c s (judge s).state) :
    Judges c (inSetup judge) := by
  intro s hrun
  unfold inSetup
  split
  next ho => exact h s hrun ho
  next => exact .nothing c s
  next => exact .nothing c s

theorem outsideSetup_judges {c : Instr} {judge : State → Answer} (h : Judges c judge) : Judges c (outsideSetup judge) := by
  intro s hrun
  unfold outsideSetup
  split
  next => exact .nothing c s
  next => exact h s hrun
  next => exact h s hrun

theorem globalOf_tickDiv {p : Vector Word 8} {g : GlobalWords} (h : globalOf p = some g) : g.tickDiv ≠ 0 := by
  unfold globalOf at h
  split at h
  · cases h
  · split at h
    · cases h
    next hrange =>
      obtain rfl := Option.some.inj h
      simp only [not_or, not_lt] at hrange
      obtain ⟨hne, hle, -⟩ := hrange
      intro hzero
      have hbyte : p[0].toNat % 256 = 0 := by simpa using congrArg BitVec.toNat hzero
      exact hne (BitVec.eq_of_toNat_eq (show p[0].toNat = 0 by omega))

theorem judgeSetGlobal_judges : Judges .setGlobal judgeSetGlobal := by
  refine inSetup_judges fun s _ ho => ?_
  split
  · exact .nothing ..
  next g hg => exact .of_deed (.globals g ho (globalOf_tickDiv hg))

theorem laneConfigOf_sound {p : Vector Word 8} {c : LaneConfig} (h : laneConfigOf p = some c) : c.Sound := by
  unfold laneConfigOf at h
  split at h
  · cases h
  · dsimp only at h
    split at h
    · cases h
    next hrange =>
      obtain rfl := Option.some.inj h
      simp only [not_or, not_and, not_le] at hrange
      obtain ⟨hdecision, -, hlengths, hfilter⟩ := hrange
      exact ⟨hdecision, hfilter, hlengths⟩

theorem judgeSetLane_judges : Judges .setLane judgeSetLane := by
  refine inSetup_judges fun s _ ho => ?_
  split
  next l c _ hc => exact .of_deed (.laneConfig l c ho (laneConfigOf_sound hc))
  next => exact .nothing ..
  next => exact .nothing ..

theorem stationConfigOf_sound {p : Vector Word 8} {c : StationConfig} (h : stationConfigOf p = some c) : c.Sound := by
  obtain ⟨hsays, -, hoffset, -, -, -, hwindow, hlength, hcap⟩ := stationConfigOf_eq_some h
  rw [← hsays.mode, ← hsays.pulseWord, ← hsays.capWord] at hlength
  rw [← hsays.mode, ← hsays.capWord] at hcap
  rw [← hsays.offset] at hoffset
  rw [← hsays.window] at hwindow
  refine ⟨hoffset, hwindow, fun hm => hlength ?_, fun hm => hcap (by rw [hm]; rfl)⟩
  cases hmode : c.mode with
  | count => decide
  | time => decide
  | item => exact absurd hmode hm

theorem judgeSetStation_judges : Judges .setStation judgeSetStation := by
  refine inSetup_judges fun s _ ho => ?_
  split
  next n c _ hc => exact .of_deed (.stationConfig n c ho fun _ => stationConfigOf_sound hc)
  next => exact .nothing ..
  next => exact .nothing ..

theorem judgeSetOutput_judges : Judges .setOutput judgeSetOutput := by
  refine inSetup_judges fun s _ ho => ?_
  split
  next o _ _ _ _ _ => exact .of_deed (.output o _ ho fun _ => rfl)
  next => exact .nothing ..
  next => exact .nothing ..
  next => exact .nothing ..

theorem judgeForceOutput_judges : Judges .forceOutput judgeForceOutput := by
  refine inSetup_judges fun s _ ho => ?_
  split
  next o _ _ _ => exact .of_deed (.output o _ ho fun _ => rfl)
  next => exact .nothing ..
  next => exact .nothing ..

theorem judgePresetPosition_judges : Judges .presetPosition judgePresetPosition :=
  inSetup_judges fun _ _ ho => .of_deed (.preset _ ho)

theorem judgeStart_judges : Judges .start judgeStart := by
  refine inSetup_judges fun s hrun ho => ?_
  split
  · exact .nothing ..
  next hhld =>
    split
    · exact .nothing ..
    next hchecks => exact .of_deed (.start hrun ho (by simpa using hhld) hchecks)

theorem judgeStop_judges : Judges .stop judgeStop := by
  intro s _
  unfold judgeStop
  split
  next => exact .nothing ..
  next ho => exact .of_deed (.stop (ho.trans_ne (by simp)))
  next ho => exact .of_deed (.stop (ho.trans_ne (by simp)))

theorem judgeHalt_judges : Judges .halt judgeHalt := by
  intro s _
  unfold judgeHalt
  split
  next => exact .nothing ..
  next ho => exact .of_deed (.halt ho)
  next => exact .nothing ..

theorem judgeResume_judges : Judges .resume judgeResume := by
  intro s _
  unfold judgeResume
  split
  next => exact .nothing ..
  next => exact .nothing ..
  next ho =>
    split
    · exact .nothing ..
    next hhld => exact .of_deed (.resume ho (by simpa using hhld))

theorem judgeDecide_judges : Judges .decideItem judgeDecide := by
  refine outsideSetup_judges fun s _ => ?_
  split
  · exact .nothing ..
  · split
    · exact .nothing ..
    · unfold decideOn
      split
      · exact .nothing ..
      · split
        · exact .nothing ..
        · exact .note (notes_updItem s _ fun _ => rfl)

theorem judgeCancel_judges : Judges .cancel judgeCancel := by
  refine outsideSetup_judges fun s _ => ?_
  split
  · exact .nothing ..
  · split
    · exact .nothing ..
    next i _ =>
      exact .of_deed (.quiet (works_cancelItem .list s i) (congrArg Control.requests (cancelItem_control s i)))

theorem judgeQueryItem_judges : Judges .queryItem judgeQueryItem := by
  refine outsideSetup_judges fun s _ => ?_
  split
  · split
    · exact .nothing ..
    · exact .nothing ..
  · exact .nothing ..
  · exact .nothing ..

theorem judgeGetLane_judges : Judges .getLane judgeGetLane := by
  intro s _
  unfold judgeGetLane
  split <;> exact .nothing ..

theorem judgeGetStation_judges : Judges .getStation judgeGetStation := by
  intro s _
  unfold judgeGetStation
  split <;> exact .nothing ..

theorem switchOff_does (s : State) (n : StationId) (ho : s.control.op ≠ .setup) :
    Does .stationEnable s (s.switchOff n).state := by
  unfold State.switchOff
  split
  next hr => exact .of_deed (.quiet (.single (.withdraw n hr)) rfl)
  next hr => exact .of_deed (.clearFailed n ho hr)
  next => exact .nothing ..

theorem switchOn_does (s : State) (n : StationId) (ho : s.control.op ≠ .setup) :
    Does .stationEnable s (s.switchOn n).state := by
  unfold State.switchOn
  split
  next => exact .nothing ..
  next hchecks => exact .of_deed (.switchOn n ho hchecks)

theorem judgeStationEnable_judges : Judges .stationEnable judgeStationEnable := by
  intro s _
  unfold judgeStationEnable
  split
  next n on _ _ =>
    split
    next ho =>
      have heq : s.updStation n (fun st => { st with config := { st.config with enabled := on == 1 } })
          = s.updStation n fun st => { st with config := { s.stations[n].config with enabled := on == 1 } } :=
        congrArg (fun v => { s with stations := v }) (upd_congr rfl)
      refine .of_deed ?_
      change Deed _ s (s.updStation n _)
      rw [heq]
      exact .stationConfig n _ ho fun h => ⟨h.offset, h.window, h.length, h.cap⟩
    next ho =>
      split
      · exact switchOn_does s n (ho.trans_ne (by simp))
      · exact switchOff_does s n (ho.trans_ne (by simp))
    next ho =>
      split
      · exact switchOn_does s n (ho.trans_ne (by simp))
      · exact switchOff_does s n (ho.trans_ne (by simp))
  next => exact .nothing ..
  next => exact .nothing ..

theorem judgeReadLaneCounters_judges : Judges .readLaneCounters judgeReadLaneCounters := by
  intro s _
  unfold judgeReadLaneCounters
  split
  next l group _ _ =>
    dsimp only [Answer.done]
    split
    · exact .nothing ..
    · exact .note (.single (.lane l _ fun _ => ⟨rfl, rfl⟩))
  next => exact .nothing ..
  next => exact .nothing ..

/-! #### Each way to an effect -/

/-- A part that does not run takes nothing: but for RESET_N a pin moves, and a read returns what it returns. -/
def State.Idles (s t : State) : Prop :=
  ∃ p readData, p.resetN = s.pins.resetN ∧ t = { s with pins := p, readData := readData }

theorem State.Idles.refl (s : State) : s.Idles s := ⟨s.pins, s.readData, rfl, rfl⟩

theorem State.Idles.pins {s : State} (p : Pins) (hp : p.resetN = s.pins.resetN) : s.Idles { s with pins := p } :=
  ⟨p, s.readData, hp, rfl⟩

/-- The command's effect on a state with no request on its way, and the requests that arrive after it; or in a part that
does not run none (R143, R149, R150). -/
def Runs (c : Instr) (s t : State) : Prop :=
  (s.running = true ∧ ∃ u, Does c (s.withRequests []) u
      ∧ t = (u.withRequests (s.requestsBefore ++ u.control.requests)).arriveHalts)
    ∨ (s.running = false ∧ s.Idles t)

theorem amid_runs {c : Instr} {s : State} {effect : State → State} (h : ∀ u, Does c u (effect u))
    (hstop : s.running = false → s.Idles (effect s)) : Runs c s (s.amid effect) := by
  unfold State.amid
  split
  next hrun => exact .inl ⟨hrun, _, h _, rfl⟩
  next hrun =>
    have hrun : s.running = false := by simpa using hrun
    exact .inr ⟨hrun, hstop hrun⟩

theorem finish_does {c : Instr} {judge : State → Answer} (h : Judges c judge) {s : State} (hrun : s.running = true) :
    Does c s (judge s).finish := by
  obtain ⟨u, hdeed, host, readData, heq⟩ := h s hrun
  refine ⟨u, hdeed, (judge s).finish.host, readData, ?_⟩
  rw [Answer.finish, heq]
  rfl

theorem complete_runs {c : Instr} {code : BitVec 8} {judge : State → Answer} {s t : State}
    (h : complete code judge s = .next t) (hj : Judges c judge) : Runs c s t := by
  obtain rfl := Host.Outcome.next.inj h
  refine amid_runs (fun u => ?_) fun hrun => by simpa [State.inFlight, hrun] using .refl s
  split
  next hflight =>
    simp only [State.inFlight, Bool.and_eq_true] at hflight
    exact finish_does hj hflight.1.1
  · exact .nothing c u

theorem atPin_runs {c : Instr} {pin event : State → State} {s t : State} (h : s.atPin pin event = .next t)
    (hstop : s.running = false → s.Idles (pin s))
    (hrun : s.running = true → Does c (s.withRequests []) (event (pin (s.withRequests [])))) : Runs c s t := by
  obtain rfl := Host.Outcome.next.inj h
  unfold State.amid
  by_cases hr : s.running = true
  · have hr' : (s.withRequests []).running = true := hr
    dsimp only
    rw [if_pos hr, if_pos hr']
    exact .inl ⟨hr, _, hrun hr, rfl⟩
  · dsimp only
    rw [if_neg hr, if_neg hr]
    have hr' : s.running = false := by simpa using hr
    exact .inr ⟨hr', hstop hr'⟩

theorem State.SameButWindow.trans {s t u : State} (h : s.SameButWindow t) (h' : t.SameButWindow u) : s.SameButWindow u := by
  obtain ⟨host, readData, rfl⟩ := h
  obtain ⟨host', readData', rfl⟩ := h'
  exact ⟨host', readData', rfl⟩

theorem Does.window {c : Instr} {s t u : State} (h : Does c s t) (h' : t.SameButWindow u) : Does c s u := by
  obtain ⟨v, hdeed, hv⟩ := h
  exact ⟨v, hdeed, hv.trans h'⟩

theorem readCycle_runs {c : Instr} {register : BitVec 5} {effect : State → State} {s t : State}
    (h : .next (s.readCycle register effect) = (.next t : Host.Outcome State Fault Refusal))
    (he : ∀ u, Does c u (effect u)) : Runs c s t := by
  obtain rfl := Host.Outcome.next.inj h
  refine amid_runs (fun u => ?_) fun hrun => ?_
  rotate_left
  · rw [if_neg (by simp [hrun])]
    split
    · exact ⟨s.pins, 0, rfl, rfl⟩
    · exact .refl s
  split
  · exact (he u).window ⟨(effect u).host, _, rfl⟩
  · split
    · exact (Does.nothing c u).window ⟨u.host, _, rfl⟩
    · exact .nothing c u

theorem writeCycle_runs {c : Instr} {effect : State → State} {s t : State}
    (h : .next (s.writeCycle effect) = (.next t : Host.Outcome State Fault Refusal))
    (he : ∀ u, Does c u (effect u)) : Runs c s t := by
  obtain rfl := Host.Outcome.next.inj h
  refine amid_runs (fun u => ?_) fun hrun => by simpa [hrun] using .refl s
  split
  · exact he u
  · exact .nothing c u

/-- A write to a register of the window alone. -/
theorem Does.host (c : Instr) (s : State) (host : HostInterface) : Does c s { s with host := host } :=
  (Does.nothing c s).window ⟨host, s.readData, rfl⟩

/-! #### Transitions of the encoder -/

theorem forwardStep_does (a b : Level) (s : State) : Does (.encoderTransition a b) s (s.atPair a b).forwardStep := by
  unfold State.forwardStep
  dsimp only
  split
  next ho => exact .of_deed (.setupStep a b _ ho)
  next ho =>
    have hne : s.control.op ≠ .setup := ho.trans_ne (by simp)
    split
    next hr => exact .of_deed (.advance a b hne hr)
    next => exact .of_deed (.shift a b _ hne)
  next ho =>
    have hne : s.control.op ≠ .setup := ho.trans_ne (by simp)
    split
    next hr => exact .of_deed (.advance a b hne hr)
    next => exact .of_deed (.shift a b _ hne)

theorem backwardStep_does (a b : Level) (s : State) : Does (.encoderTransition a b) s (s.atPair a b).backwardStep := by
  unfold State.backwardStep
  dsimp only
  split
  next ho => exact .of_deed (.setupStep a b _ ho)
  next ho =>
    split
    · exact .of_deed (.overReverse a b _ ho)
    · exact .of_deed (.shift a b _ (ho.trans_ne (by simp)))
  next ho => exact .of_deed (.shift a b _ (ho.trans_ne (by simp)))

theorem move_does (a b : Level) (s : State) (m : Motion) : Does (.encoderTransition a b) s ((s.atPair a b).move m) := by
  cases m with
  | forward => exact forwardStep_does a b s
  | backward => exact backwardStep_does a b s
  | error => exact .of_deed (.error a b)
  | none => exact .of_deed (.noStep a b)

/-! #### The writes by register number -/

theorem writeCmd_does (c : Instr) (s : State) (value : Word) : Does c s (s.writeCmd value) := by
  unfold State.writeCmd
  split <;> exact .host c s _

theorem writeStatus_does (c : Instr) (s : State) (value : Word) : Does c s (s.writeStatus value) := by
  unfold State.writeStatus
  split
  · exact .host c s _
  · exact .nothing c s

theorem writeThreshold_does (c : Instr) (s : State) (value : Word) : Does c s (s.writeThreshold value) := by
  have hdeed : Does c s { s with events := { s.events with threshold := heldThreshold value } } :=
    .of_deed (.threshold value)
  unfold State.writeThreshold
  dsimp only
  split
  · exact hdeed.window ⟨_, s.readData, rfl⟩
  · exact hdeed

theorem writeRegister_does (c : Instr) (s : State) (register : BitVec 5) (value : Word) :
    Does c s (s.writeRegister register value) := by
  unfold State.writeRegister
  split
  case h_1 => exact writeStatus_does c s value
  case h_4 => exact writeCmd_does c s value
  case h_13 => exact writeThreshold_does c s value
  case h_14 => exact .of_deed .rewind
  case h_15 => exact .nothing c s
  all_goals exact .host c s _

/-! #### Every command -/

theorem edge_does {input : InputId} {rising : Bool} (s : State) :
    Does (.confirmEdge input rising) s
      (if s.cfmRef[input] = rising then s.setCfm input rising
       else (s.atCfmEdge input rising).takeEdge input rising) := by
  split
  next href =>
    have heq : s.atCfmEdge input rising = s.setCfm input rising := by
      have hself : upd s.cfmRef input (fun _ => rising) = s.cfmRef := by
        rw [← href]
        exact Vector.set_getElem_self ..
      exact congrArg (fun v => { s.setCfm input rising with cfmRef := v }) hself
    rw [← heq]
    exact .of_deed (.edge input rising .refl rfl)
  next =>
    refine .of_deed (.edge input rising ?_ (congrArg Control.requests (takeEdge_control ..)))
    unfold State.takeEdge
    split
    · exact .refl
    · split
      · refine works_updStation (fun st => ?_) (fun h => ?_) ?_
        · split <;> exact ⟨rfl, rfl⟩
        · split <;> exact h
        · split
          · exact le_refl _
          next hw => rw [hw]; exact Nat.le_succ _
      · exact .refl

/-- The requests on their way are put by, a command has its one effect, and the requests arrive (R143). -/
theorem exec_runs {c : Instr} {s t : State} (hreset : isResetCommand c = false) (h : exec c s = .next t) :
    Runs c s t := by
  cases c with
  | powerApplied => nomatch hreset
  | powerOnResetEnd => nomatch hreset
  | resetNAssert => nomatch hreset
  | resetNRelease => nomatch hreset
  | powerLoss => nomatch hreset
  | encoderTransition a b =>
    have hpin : execEncoderTransition a b s = .next t := h
    exact atPin_runs hpin (fun _ => .pins _ rfl) fun _ => move_does a b _ _
  | timePulseEnd n =>
    have hpin : execTimePulseEnd n s = .next t := h
    refine atPin_runs hpin (fun _ => .refl s) fun _ => .of_deed (.quiet ?_ rfl)
    refine works_updStation (fun _ => ⟨rfl, rfl⟩) (fun hp => ?_) (le_refl _)
    exact congrArg (Option.bind · _) hp
  | watchExpiry n =>
    have hpin : execWatchExpiry n s = .next t := h
    exact atPin_runs hpin (fun _ => .refl s) fun _ => .of_deed (.expiry n)
  | confirmEdge input rising =>
    have hpin : execConfirmEdge input rising s = .next t := h
    exact atPin_runs hpin (fun _ => .pins _ rfl) fun _ => edge_does (s.withRequests [])
  | detInputChange l level =>
    have hpin : execDetInputChange l level s = .next t := h
    refine atPin_runs hpin (fun _ => .pins _ rfl) fun _ => ?_
    split
    next hlevel =>
      have hself : upd s.pins.det l (fun _ => level) = s.pins.det := by
        rw [← hlevel]
        exact Vector.set_getElem_self ..
      have heq : (s.withRequests []).setDet l level = s.withRequests [] :=
        congrArg (fun v => { s.withRequests [] with pins := { s.pins with det := v } }) hself
      rw [heq]
      exact .nothing ..
    next hlevel => exact .of_deed (.input l level hlevel)
  | hldAssert =>
    have hpin : execHldAssert s = .next t := h
    refine atPin_runs hpin (fun _ => .pins _ rfl) fun _ => ?_
    split
    next hhld => exact .of_deed (.holdAgain hhld)
    next hhld => exact .of_deed (.hold (by simpa using hhld))
  | hldRelease =>
    have hpin : execHldRelease s = .next t := h
    exact atPin_runs hpin (fun _ => .pins _ rfl) fun _ => .of_deed .release
  | cmdWrite value => exact writeCycle_runs h (writeCmd_does _ · value)
  | setGlobal => exact complete_runs h judgeSetGlobal_judges
  | getGlobal => exact complete_runs h fun u _ => .nothing _ u
  | setLane => exact complete_runs h judgeSetLane_judges
  | getLane => exact complete_runs h judgeGetLane_judges
  | setStation => exact complete_runs h judgeSetStation_judges
  | getStation => exact complete_runs h judgeGetStation_judges
  | setOutput => exact complete_runs h judgeSetOutput_judges
  | forceOutput => exact complete_runs h judgeForceOutput_judges
  | presetPosition => exact complete_runs h judgePresetPosition_judges
  | start => exact complete_runs h judgeStart_judges
  | stop => exact complete_runs h judgeStop_judges
  | halt => exact complete_runs h judgeHalt_judges
  | resume => exact complete_runs h judgeResume_judges
  | decideItem => exact complete_runs h judgeDecide_judges
  | cancel => exact complete_runs h judgeCancel_judges
  | queryItem => exact complete_runs h judgeQueryItem_judges
  | stationEnable => exact complete_runs h judgeStationEnable_judges
  | readCounts => exact complete_runs h fun u _ => .nothing _ u
  | readLaneCounters => exact complete_runs h judgeReadLaneCounters_judges
  | reinit => exact complete_runs h fun _ _ => .of_deed .reinit
  | unknownCommand =>
    change execUnknownCommand s = .next t at h
    unfold execUnknownCommand at h
    split at h
    · obtain rfl := Host.Outcome.next.inj h
      exact amid_runs (fun u => .nothing _ u) fun _ => .refl s
    · exact complete_runs h fun u _ => .nothing _ u
  | posLowRead => exact readCycle_runs h fun u => .of_deed (.latch _ u.position.trackHigh)
  | trackLowRead => exact readCycle_runs h fun u => .of_deed (.latch u.position.posHigh _)
  | eventDataRead => exact readCycle_runs h fun _ => .of_deed .popWord
  | eventDataWrite value => exact writeCycle_runs h fun _ => .of_deed .rewind
  | intStatusWrite value => exact writeCycle_runs h fun u => .host _ u _
  | intEnableWrite value => exact writeCycle_runs h fun u => .host _ u _
  | eventThresholdWrite value => exact writeCycle_runs h (writeThreshold_does _ · value)
  | statusWrite value => exact writeCycle_runs h (writeStatus_does _ · value)
  | registerWrite register value => exact writeCycle_runs h (writeRegister_does _ · register value)

/-! ### The supply and reset commands -/

/-- What a supply or reset command does: in a part that does not run the pins and the supply move and it still does not
run; or every block takes its reset values; or requests arrive and no more happens. -/
inductive ResetDeed (s : State) : State → Prop
  | idle (power : Power) (p : Pins) (hs : s.running = false)
      (ht : State.running { s with power := power, pins := p } = false) :
      ResetDeed s { s with power := power, pins := p }
  | blocks (p : Pins) (power : Power) (powerOn : Bool) :
      ResetDeed s { State.resetBlocks { s with pins := p } powerOn with power := power }
  | arrivals (hr : s.running = true) : ResetDeed s (s.amid id)

theorem not_running_of_power {s : State} (h : s.power ≠ .on) : s.running = false := by
  simp [State.running, h]

theorem amid_congr {s : State} {effect effect' : State → State} (hr : s.running = true)
    (h : effect (s.withRequests []) = effect' (s.withRequests [])) : s.amid effect = s.amid effect' := by
  simp only [State.amid, hr, if_true, h]

theorem exec_reset {c : Instr} {s t : State} (hreset : isResetCommand c = true) (h : exec c s = .next t) :
    ResetDeed s t := by
  have hself (p : Power) (hp : s.power = p) : { s with power := p } = s := by rw [← hp]
  cases c with
  | powerApplied =>
    obtain rfl := Host.Outcome.next.inj h
    by_cases hr : s.running = true
    · have hon : s.power = .on := by
        simp only [State.running, Bool.and_eq_true, beq_iff_eq] at hr
        exact hr.1
      rw [amid_congr (effect' := id) hr (by simp [hon])]
      exact .arrivals hr
    · have hr : s.running = false := by simpa using hr
      rw [amid_stopped hr]
      split
      · exact .idle .starting s.pins hr rfl
      · exact .idle s.power s.pins hr hr
      · exact .idle s.power s.pins hr hr
  | powerOnResetEnd =>
    obtain rfl := Host.Outcome.next.inj h
    by_cases hr : s.running = true
    · have hon : s.power = .on := by
        simp only [State.running, Bool.and_eq_true, beq_iff_eq] at hr
        exact hr.1
      rw [amid_congr (effect' := id) hr (by simp [hon])]
      exact .arrivals hr
    · have hr : s.running = false := by simpa using hr
      rw [amid_stopped hr]
      split
      · exact .idle s.power s.pins hr hr
      · exact .blocks s.pins .on true
      · exact .idle s.power s.pins hr hr
  | resetNAssert =>
    obtain rfl := Host.Outcome.next.inj h
    split
    · exact .blocks _ s.power s.host.powerOn
    next hr => exact .idle s.power _ (by simpa using hr) (by simp [State.running])
  | resetNRelease =>
    obtain rfl := Host.Outcome.next.inj h
    by_cases hr : s.running = true
    · simp only [State.running, Bool.and_eq_true, beq_iff_eq] at hr
      obtain ⟨hon, hn⟩ := id hr
      have hpin : (s.withRequests []).setResetN true = s.withRequests [] := by
        rw [← hn]
        rfl
      have hr' : s.running = true := by simp [State.running, hon, hn]
      rw [amid_congr (effect' := id) hr' (by rw [if_neg (by simp [hn]), hpin]; rfl)]
      exact .arrivals hr'
    · have hr : s.running = false := by simpa using hr
      rw [amid_stopped hr]
      split
      · exact .blocks _ s.power s.host.powerOn
      next hnot =>
        refine .idle s.power _ hr (not_running_of_power ?_)
        intro hon
        have hn : s.power = .on → s.pins.resetN = false := by simpa [State.running] using hr
        exact hnot ⟨hon, hn hon⟩
  | powerLoss =>
    obtain rfl := Host.Outcome.next.inj h
    split
    next hoff => exact .idle s.power s.pins (not_running_of_power (by simp [hoff])) (not_running_of_power (by simp [hoff]))
    next => exact .blocks s.pins .off false
    next => exact .blocks s.pins .off false
  | _ => nomatch hreset

end Sys2Proof.Machine
end

section
/-! PROOFS. What a step changes outside the blocks' works, piece by piece, and the rule by which a property is kept by
every step: it is kept by every work, by what operating control does with a request, and by each such piece. -/

namespace Sys2Proof.Machine

/-- RESUME enters TRACKING (steps 2 and 3 of R146): the record of the halt cleared, no held level, and the firing point
at the tracking position. -/
def State.resumed (s : State) : State :=
  { s with
    outputs := mapAll (fun x => { x with held := none }) s.outputs
    list := { s.list with firingPoint := s.position.tracking }
    control := { s.control with op := .tracking, firstCause := none, causeMask := 0 } }

/-- One change of state that is neither a work of a block nor the taking of a halt request; the resets are apart. -/
inductive Turn (s : State) : State → Prop
  | phase (phase : BitVec 8) : Turn s (s.atPhase phase)
  | pins (p : Pins) (hrun : s.running = false) (hp : p.resetN = s.pins.resetN) : Turn s { s with pins := p }
  | confirm (input : InputId) (level : Level) : Turn s (s.atCfmEdge input level)
  | det (l : LaneId) (level : Level) : Turn s (s.setDet l level)
  | hld (level : Level) (h : level = false → s.control.op = .tracking → s.control.hldAsserted = true) :
      Turn s ((s.setHld level).sampleHld (!level))
  | holdHalt (ho : s.control.op = .tracking) : Turn s (((s.setHld false).sampleHld true).haltTaken .holdInput)
  | pair (a b : Level) : Turn s (s.atPair a b)
  | note (errors posHigh trackHigh : Word) :
      Turn s { s with position := { s.position with errors := errors, posHigh := posHigh, trackHigh := trackHigh } }
  | setupMove (counter : Pos) (ho : s.control.op = .setup) : Turn s (s.moveInSetup counter)
  | stepped (ho : s.control.op ≠ .setup) (hr : s.reverse = 0) : Turn s s.stepped
  | shift (counter : Pos) (ho : s.control.op ≠ .setup) : Turn s (s.setPositions counter s.position.tracking)
  | settle (ho : s.control.op = .tracking) : Turn s s.settleFiringPoint
  | popWord : Turn s s.popEventWord
  | rewind : Turn s s.writeEventData
  | threshold (value : Word) : Turn s { s with events := { s.events with threshold := heldThreshold value } }
  | globals (g : GlobalWords) (ho : s.control.op = .setup) (hg : g.tickDiv ≠ 0) : Turn s (s.writeGlobals g)
  | laneConfig (l : LaneId) (c : LaneConfig) (ho : s.control.op = .setup) (hc : c.Sound) :
      Turn s (s.updLane l fun x => { x with config := c })
  | stationConfig (n : StationId) (c : StationConfig) (ho : s.control.op = .setup)
      (hc : s.stations[n].config.Sound → c.Sound) : Turn s (s.updStation n fun x => { x with config := c })
  | output (o : OutputId) (f : OutputLine → OutputLine) (ho : s.control.op = .setup) (hf : ∀ x, (f x).held = x.held) :
      Turn s (s.updOutput o f)
  | start (hrun : s.running = true) (ho : s.control.op = .setup) (hhld : s.control.hldAsserted = false)
      (hchecks : s.startFailure = none) : Turn s s.beginTracking
  | stop : Turn s s.returnToSetup
  | clear (ho : s.control.op = .setup) : Turn s s.clearRun
  | resume (ho : s.control.op = .halted) (hhld : s.control.hldAsserted = false)
      (hreached : s.list.entries.all (fun e => !e.reached)) : Turn s s.resumed
  | clearFailed (n : StationId) (ho : s.control.op ≠ .setup) (hr : s.stations[n].runtime = .failed) :
      Turn s (s.updStation n fun x => { x with runtime := .disabled })
  | switchOn (n : StationId) (ho : s.control.op ≠ .setup) (hchecks : s.enableFailure n = none) :
      Turn s (s.updStation n fun x => { x with runtime := .enabled, misses := 0 })

/-- Changes and turns, one after another. -/
abbrev Course : State → State → Prop := Relation.ReflTransGen fun s t => Change s t ∨ Turn s t

theorem Chain.course {s t : State} (h : Chain s t) : Course s t :=
  Relation.ReflTransGen.mono (fun _ _ hc => .inl hc) _ _ h

theorem Turn.course {s t : State} (h : Turn s t) : Course s t := .single (.inr h)

theorem Works.course {w : Worker} {s t : State} (h : Works w s t) : Course s t := h.chain.course

theorem Course.induction {P : State → Prop} (hw : ∀ s t w, Work w s t → P s → P t)
    (hc : ∀ s t, Settles s t → P s → P t) (ht : ∀ s t, Turn s t → P s → P t) {s t : State} (h : Course s t) (hs : P s) :
    P t := by
  induction h with
  | refl => exact hs
  | tail _ hstep ih =>
    obtain (⟨w, hwork⟩ | hsettles) | hturn := hstep
    · exact hw _ _ w hwork ih
    · exact hc _ _ hsettles ih
    · exact ht _ _ hturn ih

/-! ### Every deed is a course -/

theorem moveCounter_chain (s : State) (counter : Pos) :
    Chain (s.setPositions counter s.position.tracking) (s.moveCounter counter) := by
  unfold State.moveCounter
  dsimp only
  split
  · exact chain_resampleAll _
  · exact .refl

theorem course_moveCounter {s : State} (counter : Pos) (ho : s.control.op ≠ .setup) : Course s (s.moveCounter counter) :=
  (Turn.course (.shift counter ho)).trans (moveCounter_chain s counter).course

theorem course_settleTracking (s : State) : Course s s.settleTracking := by
  unfold State.settleTracking
  split
  next => exact .refl
  next ho => exact Turn.course (.settle ho)
  next => exact .refl

theorem course_takeAdvance (s : State) : Course s s.takeAdvance :=
  (chain_runTasks taskFuel s.advanceTasks s).course.trans (course_settleTracking _)

theorem course_encoderError (s : State) : Course s s.encoderError := by
  have hcount := Turn.note (s := s) (s.position.errors + 1) s.position.posHigh s.position.trackHigh
  unfold State.encoderError
  split
  next => exact hcount.course
  next ho =>
    refine hcount.course.trans (Chain.course ?_)
    exact chain_withRequests _ (s.control.requests ++ [.encoder])
  next ho =>
    refine hcount.course.trans (Chain.course ?_)
    exact Settles.chain (.again .encoder ho)

/-- The catch-up before the firing point is settled leaves the list without a reached entry. -/
theorem catchEntry_entries_le (s : State) (e : Entry) : (s.catchEntry e).list.entries.length ≤ s.list.entries.length := by
  unfold State.catchEntry
  split
  · exact le_refl _
  · rw [(notes_fireDeadline ..).parts.1]
  · rw [(notes_missAction ..).parts.1]
  · cases hf : s.findItem e.tag with
    | none => rw [retireItem_none hf]
    | some i =>
      rw [retireItem_some hf]
      refine le_of_eq ?_
      rw [State.freeItem, State.unmarkTag, State.updEntries]
      dsimp only
      rw [(notes_noteRetired s i).parts.1, List.length_map]

theorem catchUpLoop_unreached (fuel taken missed : Nat) (s : State) (h : s.list.entries.length ≤ fuel) :
    (State.catchUpLoop fuel taken missed s).1.list.entries.all (fun e => !e.reached) = true := by
  induction fuel generalizing s taken missed with
  | zero =>
    have hnil : s.list.entries = [] := List.length_eq_zero_iff.1 (Nat.le_zero.1 h)
    rw [State.catchUpLoop, hnil]
    rfl
  | succ fuel ih =>
    simp only [State.catchUpLoop]
    split
    next hnone =>
      simp only [List.all_eq_true, Bool.not_eq_true']
      exact takeFirst_none.1 hnone
    next e rest hsome =>
      refine ih _ _ _ ((catchEntry_entries_le _ e).trans ?_)
      have hlength := takeFirst_length hsome
      change rest.length ≤ fuel
      omega

/-- What RESUME does: the catch-up, TRACKING, and the event RESUMED. -/
theorem reportResumed_enterTracking (s : State) (taken missed : Nat) :
    (s.settleFiringPoint.reportResumed taken missed).enterTracking
      = (s.report .resumed 0 0 (BitVec.ofNat 16 taken) (BitVec.ofNat 16 missed)).resumed := by
  simp only [State.reportResumed, report_eq, arrive_eq]
  rfl

theorem chain_resumeSampling (s : State) : Chain s s.resumeSampling := by
  unfold State.resumeSampling
  split
  · exact (chain_resampleAll s).trans (chain_settleHalts _)
  · exact .refl

theorem chain_resumeOverReverse (s : State) : Chain s s.resumeOverReverse := by
  unfold State.resumeOverReverse
  split
  · exact chain_takeHalt ..
  · exact .refl

theorem course_resumeRun {s : State} (ho : s.control.op = .halted) (hhld : s.control.hldAsserted = false) :
    Course s s.resumeRun.state := by
  have hloop := works_catchUpLoop .list s.list.entries.length 0 0 s
  have hunreached := catchUpLoop_unreached s.list.entries.length 0 0 s (le_refl _)
  have hreport := (notes_report (State.catchUpLoop s.list.entries.length 0 0 s).1 .resumed 0 0
    (BitVec.ofNat 16 s.catchUp.2.1) (BitVec.ofNat 16 s.catchUp.2.2))
  have hworks : Works .list s _ := hloop.trans (hreport.works .list)
  change Course s (((s.catchUp.1.reportResumed s.catchUp.2.1 s.catchUp.2.2).enterTracking).resumeSampling.resumeOverReverse)
  rw [show s.catchUp.1 = (State.catchUpLoop s.list.entries.length 0 0 s).1.settleFiringPoint from rfl,
    reportResumed_enterTracking]
  refine Relation.ReflTransGen.trans ?_ (Chain.course ((chain_resumeSampling _).trans (chain_resumeOverReverse _)))
  refine hworks.course.trans (Turn.course (.resume (hworks.frame.op.trans ho) (hworks.frame.hldAsserted.trans hhld) ?_))
  rwa [hreport.parts.1]

theorem Deed.course {c : Instr} {s t : State} (h : Deed c s t) : Course s t := by
  cases h with
  | quiet h hr => exact h.course
  | expiry n => exact (works_missHead .list s n 0).course
  | edge input rising h hr => exact (Turn.course (.confirm input rising)).trans h.course
  | input l level hl => exact (Turn.course (.det l level)).trans (works_laneInput _ l).course
  | holdAgain hhld =>
    have hturn := Turn.hld (s := s) false (fun _ _ => hhld)
    rw [show s.setHld false = (s.setHld false).sampleHld (!false) by rw [State.sampleHld, Bool.not_false, ← hhld]; rfl]
    exact hturn.course
  | hold hhld =>
    have hstay (ho : s.control.op ≠ .tracking) : Course s ((s.setHld false).sampleHld true) :=
      Turn.course (.hld false fun _ h => absurd h ho)
    unfold State.takeHalt
    split
    next ho => exact hstay (Eq.trans_ne (show s.control.op = .setup from ho) (by simp))
    next ho =>
      rw [haltEntry_eq]
      refine (Turn.course (.holdHalt (s := s) ho)).trans (Chain.course ?_)
      exact (Works.chain (Notes.works .list (notes_report ..))).trans (chain_raiseInt ..)
    next ho =>
      refine (hstay (Eq.trans_ne (show s.control.op = .halted from ho) (by simp))).trans (Chain.course ?_)
      exact Settles.chain (.again .holdInput ho)
  | release => exact Turn.course (.hld true fun h => nomatch h)
  | noStep a b => exact Turn.course (.pair a b)
  | error a b => exact (Turn.course (.pair a b)).trans (course_encoderError _)
  | setupStep a b counter ho => exact (Turn.course (.pair a b)).trans (Turn.course (.setupMove counter ho))
  | advance a b ho hr =>
    exact ((Turn.course (.pair a b)).trans (Turn.course (.stepped ho hr))).trans (course_takeAdvance _)
  | shift a b counter ho => exact (Turn.course (.pair a b)).trans (course_moveCounter counter ho)
  | overReverse a b counter ho =>
    refine ((Turn.course (.pair a b)).trans (course_moveCounter counter ?_)).trans (Chain.course ?_)
    · exact Eq.trans_ne ho (by simp)
    · exact chain_withRequests _ (_ ++ [.overReverse])
  | latch posHigh trackHigh => exact Turn.course (.note s.position.errors posHigh trackHigh)
  | popWord => exact Turn.course .popWord
  | rewind => exact Turn.course .rewind
  | threshold value => exact Turn.course (.threshold value)
  | globals g ho hg => exact Turn.course (.globals g ho hg)
  | laneConfig l c ho hc => exact Turn.course (.laneConfig l c ho hc)
  | stationConfig n c ho hc => exact Turn.course (.stationConfig n c ho hc)
  | output o f ho hf => exact Turn.course (.output o f ho hf)
  | preset value ho => exact Turn.course (.setupMove value ho)
  | start hrun ho hhld hchecks => exact Turn.course (.start hrun ho hhld hchecks)
  | stop ho => exact Turn.course .stop
  | reinit => exact (Turn.course .stop).trans (Turn.course (.clear rfl))
  | halt ho => exact (chain_takeHalt s .host).course
  | resume ho hhld => exact course_resumeRun ho hhld
  | clearFailed n ho hr => exact Turn.course (.clearFailed n ho hr)
  | switchOn n ho hchecks => exact Turn.course (.switchOn n ho hchecks)

/-! ### A property kept by every step -/

theorem Does.course {c : Instr} {s t : State} (h : Does c s t) : Course s t := by
  obtain ⟨u, hdeed, hwindow⟩ := h
  exact hdeed.course.trans hwindow.chain.course

theorem State.Idles.course {s t : State} (h : s.Idles t) (hrun : s.running = false) : Course s t := by
  obtain ⟨p, readData, hp, rfl⟩ := h
  refine (Turn.course (.pins p hrun hp)).trans (Chain.course ?_)
  exact Settles.chain (.book s.control.requests s.host readData s.choices s.pending)

theorem Runs.course {c : Instr} {s t : State} (h : Runs c s t) : Course s t := by
  obtain ⟨-, u, hdoes, rfl⟩ | ⟨hrun, hidles⟩ := h
  · exact ((chain_withRequests s []).course.trans hdoes.course).trans
      (Chain.course ((chain_withRequests u _).trans (chain_arriveHalts _)))
  · exact hidles.course hrun

theorem amid_id_course {s : State} (hr : s.running = true) : Course s (s.amid id) := by
  rw [State.amid, if_pos hr]
  exact Chain.course ((chain_withRequests s []).trans ((chain_withRequests _ _).trans (chain_arriveHalts _)))

theorem clockPeriod_course (s : State) : Course s s.clockPeriod := by
  by_cases hr : s.running = true
  · obtain ⟨phase, hchain⟩ := clockPeriod_chain hr
    exact ((chain_arriveHalts s).course.trans (Turn.course (.phase phase))).trans hchain.course
  · rw [State.clockPeriod, if_neg hr]

/-- A step is a course, or a reset. -/
theorem step_course_or_reset {s t : State} (h : step s = .next t) :
    Course s t ∨ ∃ rest, ResetDeed { s with pending := rest } t := by
  cases hp : s.pending with
  | nil =>
    rw [step_nil hp] at h
    obtain rfl := Host.Outcome.next.inj h
    exact .inl (clockPeriod_course s)
  | cons c rest =>
    rw [step_cons hp] at h
    by_cases hreset : isResetCommand c = true
    · exact .inr ⟨rest, exec_reset hreset h⟩
    · have hruns := exec_runs (by simpa using hreset) h
      refine .inl (Relation.ReflTransGen.trans (Chain.course ?_) hruns.course)
      exact Settles.chain (.book s.control.requests s.host s.readData s.choices rest)

/-- What a property must be kept by, to be kept by every step. -/
structure Kept (P : State → Prop) : Prop where
  work : ∀ s t w, Work w s t → P s → P t
  settles : ∀ s t, Settles s t → P s → P t
  turn : ∀ s t, Turn s t → P s → P t
  idle : ∀ (s : State) (power : Power) (p : Pins), s.running = false → State.running { s with power := power, pins := p } = false → P s →
    P { s with power := power, pins := p }
  blocks : ∀ (s : State) (p : Pins) (power : Power) (powerOn : Bool),
    P { State.resetBlocks { s with pins := p } powerOn with power := power }

theorem Kept.course {P : State → Prop} (hk : Kept P) {s t : State} (h : Course s t) (hs : P s) : P t :=
  Course.induction hk.work hk.settles hk.turn h hs

theorem Kept.step {P : State → Prop} (hk : Kept P) : KeptByStep P := by
  intro s t hs h
  obtain hcourse | ⟨rest, hreset⟩ := step_course_or_reset h
  · exact hk.course hcourse hs
  · have hrest : P { s with pending := rest } :=
      hk.settles _ _ (.book s.control.requests s.host s.readData s.choices rest) hs
    cases hreset with
    | idle power p hs' ht => exact hk.idle _ power p hs' ht hrest
    | blocks p power powerOn => exact hk.blocks ..
    | arrivals hr => exact hk.course (amid_id_course hr) hrest

end Sys2Proof.Machine
end

section
/-! PROOFS. The capacities and the event queue (O52): what each work does to the lengths of the queue, the list, the
watches and the event records. -/

namespace Sys2Proof.Machine

/-! ### The list after entries are placed, cleared of marks or re-keyed -/

theorem foldl_insert_perm (p : Pos) (new es : List Entry) :
    (new.foldl (fun es e => insertEntry p e es) es).Perm (new ++ es) := by
  induction new generalizing es with
  | nil => exact .refl _
  | cons e rest ih =>
    refine (ih (insertEntry p e es)).trans ?_
    exact ((insertEntry_perm p e es).append_left rest).trans List.perm_middle

/-- The slots of a list with its reservations (R66). -/
def slotsOf (es : List Entry) : Nat := es.length + es.countP Entry.isOn

theorem slotsUsed_eq (s : State) : s.slotsUsed = slotsOf s.list.entries := rfl

@[simp] theorem slotsOf_append (xs ys : List Entry) : slotsOf (xs ++ ys) = slotsOf xs + slotsOf ys := by
  simp only [slotsOf, List.length_append, List.countP_append]
  omega

theorem slotsOf_cons (e : Entry) (es : List Entry) : slotsOf (e :: es) = slotsOf es + 1 + if e.isOn then 1 else 0 := by
  simp only [slotsOf, List.length_cons, List.countP_cons]
  omega

theorem slotsOf_perm {xs ys : List Entry} (h : xs.Perm ys) : slotsOf xs = slotsOf ys := by
  rw [slotsOf, slotsOf, h.length_eq, h.countP_eq]

theorem slotsOf_sublist {xs ys : List Entry} (h : xs.Sublist ys) : slotsOf xs ≤ slotsOf ys :=
  Nat.add_le_add h.length_le (h.countP_le ..)

theorem slotsOf_map {f : Entry → Entry} (hf : ∀ e, (f e).isOn = e.isOn) (es : List Entry) :
    slotsOf (es.map f) = slotsOf es := by
  simp only [slotsOf, List.length_map, List.countP_map]
  congr 2
  funext e
  exact hf e

theorem slotsOf_insert (p : Pos) (e : Entry) (es : List Entry) : slotsOf (insertEntry p e es) = slotsOf (e :: es) :=
  slotsOf_perm (insertEntry_perm p e es)

theorem isOn_of_kind {e : Entry} {n : StationId} (h : e.kind = .on n) : e.isOn = true := by
  simp [Entry.isOn, h]

theorem make_off_isOn (n : StationId) (r : Bool) (pos : Pos) (tag : Tag) :
    (Entry.make (.off n r) pos tag).isOn = false := rfl

/-- A re-keyed entry stays in its place, moves, or leaves; an entry that is not re-keyed stays. -/
theorem rekey_cases (s : State) (tag : Tag) (t : Pos) (e : Entry) :
    (s.rekeyKept tag t e = some e ∧ s.rekeyMoved tag t e = none)
      ∨ (e.rekeysFor tag = true ∧ s.rekeyKept tag t e = some e.unmark ∧ s.rekeyMoved tag t e = none)
      ∨ (e.rekeysFor tag = true ∧ s.rekeyKept tag t e = none ∧ s.rekeyMoved tag t e = none)
      ∨ (e.rekeysFor tag = true ∧ s.rekeyKept tag t e = none
          ∧ ∃ c, s.rekeyMoved tag t e = some { e.unmark with fire := c } ∧ s.hasReached c = false
              ∧ behind c e.fire = true) := by
  unfold State.rekeyKept State.rekeyMoved State.rekeyOf
  cases hk : e.kind with
  | off n r =>
    dsimp only
    by_cases hr : (r && e.tag == tag) = true
    · have hfor : e.rekeysFor tag = true := by simpa [Entry.rekeysFor, hk] using hr
      rw [if_pos hr]
      generalize hc : t + s.stations[n].config.pulseWord.zeroExtend 32 = c
      unfold rekeyResult
      by_cases h1 : s.hasReached c = true
      · rw [if_pos h1]
        exact .inr (.inr (.inl ⟨hfor, rfl, rfl⟩))
      · rw [if_neg h1]
        by_cases h2 : behind c e.fire = true
        · rw [if_pos h2]
          exact .inr (.inr (.inr ⟨hfor, rfl, c, rfl, by simpa using h1, h2⟩))
        · rw [if_neg h2]
          exact .inr (.inl ⟨hfor, rfl, rfl⟩)
    · rw [if_neg hr]
      exact .inl ⟨rfl, rfl⟩
  | deadline => exact .inl ⟨rfl, rfl⟩
  | on n => exact .inl ⟨rfl, rfl⟩
  | retire => exact .inl ⟨rfl, rfl⟩

theorem rekey_entries (s : State) (tag : Tag) (t : Pos) :
    (s.rekey tag t).list.entries = (s.list.entries.filterMap (s.rekeyMoved tag t)).foldl
      (fun es e => insertEntry s.list.firingPoint e es) (s.list.entries.filterMap (s.rekeyKept tag t)) := rfl

theorem rekey_perm (s : State) (tag : Tag) (t : Pos) :
    (s.rekey tag t).list.entries.Perm
      (s.list.entries.filterMap (s.rekeyMoved tag t) ++ s.list.entries.filterMap (s.rekeyKept tag t)) :=
  foldl_insert_perm ..

theorem rekeysFor_iff {tag : Tag} {e : Entry} :
    e.rekeysFor tag = true ↔ ∃ n, e.kind = .off n true ∧ e.tag = tag := by
  cases e with | mk k => cases k <;> simp [Entry.rekeysFor, and_comm]

/-- Re-keying takes no slot more. -/
theorem slotsOf_rekeyed (s : State) (tag : Tag) (t : Pos) (es : List Entry) :
    slotsOf (es.filterMap (s.rekeyMoved tag t)) + slotsOf (es.filterMap (s.rekeyKept tag t)) ≤ slotsOf es := by
  have hon (e : Entry) (c : Pos) : Entry.isOn { e.unmark with fire := c } = e.isOn := unmark_isOn e
  induction es with
  | nil => exact Nat.zero_le _
  | cons e rest ih =>
    simp only [List.filterMap_cons]
    obtain ⟨hkept, hmoved⟩ | ⟨-, hkept, hmoved⟩ | ⟨-, hkept, hmoved⟩ | ⟨-, hkept, c, hmoved, -⟩ := rekey_cases s tag t e
    all_goals
      rw [hkept, hmoved]
      simp only [slotsOf_cons, hon]
      omega

theorem slotsOf_rekey (s : State) (tag : Tag) (t : Pos) :
    slotsOf (s.rekey tag t).list.entries ≤ slotsOf s.list.entries := by
  rw [slotsOf_perm (rekey_perm s tag t), slotsOf_append]
  exact slotsOf_rekeyed s tag t _

theorem filter_on_map (f : StationId → Entry) (hf : ∀ n, (f n).isOn = true) (ns : List StationId) :
    slotsOf (ns.map f) = 2 * ns.length := by
  induction ns with
  | nil => rfl
  | cons n rest ih =>
    rw [List.map_cons, slotsOf_cons, ih, hf]
    simp only [if_true, List.length_cons]
    omega

/-- An item needs the slots of the entries planned for it (R39, R69). -/
theorem slotsOf_plan (s : State) (l : LaneId) (leading : Pos) (tag : Tag) :
    slotsOf (s.plan l leading tag) = s.slotNeed l := by
  unfold State.plan State.slotNeed
  rw [slotsOf_append, slotsOf_append, filter_on_map _ (fun _ => rfl)]
  split <;> rfl

theorem enroll_perm (s : State) (l : LaneId) (leading : Pos) (tag : Tag) :
    (s.enroll l leading tag).list.entries.Perm (s.plan l leading tag ++ s.list.entries) := by
  rw [enroll_eq]
  exact foldl_insert_perm ..

/-- What the queue's answer says: room for the record and for its entries, and the first free tag. -/
theorem judgeAdmission_admitted {s : State} {l : LaneId} {tag : Tag} (h : s.judgeAdmission l = .admitted tag) :
    s.queue.items.length < 64 ∧ s.slotsUsed + s.slotNeed l ≤ 192 ∧ tag = s.giveTag := by
  unfold State.judgeAdmission at h
  split at h
  · cases h
  next hroom =>
    split at h
    next hslots =>
      exact ⟨not_le.1 hroom, of_decide_eq_true hslots, (Admission.admitted.inj h).symm⟩
    · cases h

/-! ### What the works do to the list -/

/-- The placing of an activation's holder, in the list without the ON entry. -/
theorem placeHolder_slots {s t : State} {n : StationId} {fire : Pos} {i : Item} (h : s.placeHolder n fire i = some t) :
    slotsOf t.list.entries ≤ slotsOf s.list.entries + 1 := by
  obtain ⟨pos, r, rfl, -⟩ | rfl := placeHolder_cases h
  · change slotsOf (insertEntry ..) ≤ _
    rw [slotsOf_insert, slotsOf_cons, make_off_isOn]
    exact le_refl _
  · exact Nat.le_succ _

theorem placeHolder_queue {s t : State} {n : StationId} {fire : Pos} {i : Item} (h : s.placeHolder n fire i = some t) :
    t.queue = s.queue := by
  obtain ⟨pos, r, rfl, -⟩ | rfl := placeHolder_cases h <;> rfl

theorem failing_parts (s : State) (n : StationId) :
    (s.failing n).list = (s.withdraw n .failed).list ∧ (s.failing n).stations = (s.withdraw n .failed).stations
      ∧ (s.failing n).queue = s.queue ∧ (s.failing n).lanes = s.lanes ∧ (s.failing n).events = s.events := by
  unfold State.failing
  split <;> exact ⟨rfl, rfl, rfl, rfl, rfl⟩

theorem activate_slots {s placed : State} {e : Entry} {rest : List Entry} {n : StationId} {i : Item}
    (ht : s.Takes s.due e rest) (hk : e.kind = .on n) (hp : (s.left rest).placeHolder n e.fire i = some placed) :
    slotsOf placed.list.entries ≤ slotsOf s.list.entries := by
  have hplaced := placeHolder_slots hp
  have htaken := slotsOf_perm (takeFirst_perm ht)
  rw [slotsOf_cons, isOn_of_kind hk] at htaken
  change slotsOf placed.list.entries ≤ slotsOf rest + 1 at hplaced
  omega

theorem Note.items_tags {s t : State} (h : Note s t) : t.queue.items.map Item.tag = s.queue.items.map Item.tag := by
  cases h with
  | event r => rw [arrive_eq]
  | lane l f hf => rfl
  | detector l d hon hd => rfl
  | item tag f hf =>
    rw [State.updItem, List.map_map]
    refine List.map_congr_left fun i _ => ?_
    rw [Function.comp_apply]
    split
    · exact hf i
    · rfl

theorem ite_unmark_isOn (p : Prop) [Decidable p] (e : Entry) : (if p then e.unmark else e).isOn = e.isOn := by
  split
  · exact unmark_isOn e
  · rfl

theorem slotsOf_freeItem (s : State) (tag : Tag) : slotsOf (s.freeItem tag).list.entries = slotsOf s.list.entries :=
  slotsOf_map (fun e => ite_unmark_isOn _ e) _

theorem Work.capacity {w : Worker} {s t : State} (h : Work w s t) (hs : s.WithinCapacity) : t.WithinCapacity := by
  obtain ⟨hitems, hslots, hwatches⟩ := hs
  change slotsOf s.list.entries ≤ 192 at hslots
  have hfilter (p : Entry → Bool) : slotsOf (s.list.entries.filter p) ≤ 192 :=
    (slotsOf_sublist List.filter_sublist).trans hslots
  have hwithdraw (n : StationId) (r : Runtime) (m : StationId) : (s.withdraw n r).stations[m].watches.length ≤ 4 :=
    upd_forall (P := fun _ (st : Station) => st.watches.length ≤ 4) n hwatches (fun _ => Nat.zero_le _) m
  cases h with
  | note h =>
    obtain ⟨hlist, -, hstations, -⟩ := h.parts
    refine ⟨?_, by rw [hlist]; exact hslots, by rw [hstations]; exact hwatches⟩
    have hlength := congrArg List.length h.items_tags
    simp only [List.length_map] at hlength
    omega
  | enrol l pos tag hw hb hpos hq =>
    obtain ⟨hroom, hneed, -⟩ := judgeAdmission_admitted hq
    refine ⟨?_, ?_, ?_⟩
    · rw [enroll_eq]
      simp only [List.length_append, List.length_singleton]
      omega
    · change slotsOf _ ≤ 192
      rw [slotsOf_perm (enroll_perm ..), slotsOf_append, slotsOf_plan]
      rw [slotsUsed_eq] at hneed
      omega
    · rw [enroll_eq]
      exact hwatches
  | request c => exact ⟨hitems, hslots, hwatches⟩
  | drop p e rest ht => exact ⟨hitems, (slotsOf_sublist (takeFirst_sublist ht)).trans hslots, hwatches⟩
  | activate e rest n i placed ho ht hk hp =>
    refine ⟨?_, (activate_slots ht hk hp).trans hslots, fun m => ?_⟩
    · rw [placeHolder_queue hp]
      exact hitems
    · rw [(placeHolder_watches hp m).1]
      exact hwatches m
  | activateWatch e rest n i placed ho ht hk hp hroom =>
    refine ⟨?_, (activate_slots ht hk hp).trans hslots, ?_⟩
    · rw [State.appendWatch, updStation_queue, placeHolder_queue hp]
      exact hitems
    · refine upd_forall (P := fun _ (st : Station) => st.watches.length ≤ 4) n (fun m => ?_) fun _ => ?_
      · rw [(placeHolder_watches hp m).1]
        exact hwatches m
      · rw [List.length_append, (placeHolder_watches hp n).1]
        exact hroom
  | retire p e rest ht =>
    refine ⟨(List.length_filter_le ..).trans hitems, ?_, hwatches⟩
    change slotsOf (State.freeItem ..).list.entries ≤ 192
    rw [slotsOf_freeItem]
    exact (slotsOf_sublist (takeFirst_sublist ht)).trans hslots
  | cancel tag =>
    refine ⟨(List.length_filter_le ..).trans hitems, ?_, hwatches⟩
    change slotsOf (State.freeItem ..).list.entries ≤ 192
    rw [slotsOf_freeItem]
    exact hfilter _
  | rekey tag t => exact ⟨hitems, (slotsOf_rekey s tag t).trans hslots, hwatches⟩
  | stations v hv => exact ⟨hitems, hslots, fun n => (hv n).2.2.2.trans (hwatches n)⟩
  | withdraw n hr => exact ⟨hitems, hfilter _, hwithdraw n .disabled⟩
  | fail n hr =>
    obtain ⟨hlist, hstations, hqueue, -⟩ := failing_parts s n
    refine ⟨by rw [hqueue]; exact hitems, by rw [hlist]; exact hfilter _, by rw [hstations]; exact hwithdraw n .failed⟩
  | overtake n new hr hfull =>
    refine ⟨hitems, hslots, upd_forall (P := fun _ (st : Station) => st.watches.length ≤ 4) n hwatches fun hn => ?_⟩
    rw [List.length_append, List.length_tail, List.length_singleton]
    omega
  | mark ho =>
    refine ⟨hitems, ?_, hwatches⟩
    change slotsOf (s.list.entries.map _) ≤ 192
    rw [slotsOf_map]
    · exact hslots
    · intro e
      split <;> rfl

theorem haltTaken_watches (s : State) (c : Cause) (n : StationId) : (s.haltTaken c).stations[n].watches = [] := by
  change (mapAll _ s.stations)[n].watches = []
  rw [mapAll_get]

theorem returnToSetup_watches (s : State) (n : StationId) : s.returnToSetup.stations[n].watches = [] := by
  change (mapAll _ s.stations)[n].watches = []
  rw [mapAll_get]
  rfl

theorem withinCapacity_of {s t : State} (hs : s.WithinCapacity) (hq : t.queue.items = s.queue.items)
    (hl : t.list.entries = s.list.entries)
    (hw : ∀ n : StationId, t.stations[n].watches.length ≤ s.stations[n].watches.length) : t.WithinCapacity :=
  ⟨by rw [hq]; exact hs.items, by rw [hl]; exact hs.slots, fun n => (hw n).trans (hs.watches n)⟩

theorem Settles.capacity {s t : State} (h : Settles s t) (hs : s.WithinCapacity) : t.WithinCapacity := by
  cases h with
  | halt c ho => exact withinCapacity_of hs rfl rfl fun n => by rw [haltTaken_watches]; exact Nat.zero_le _
  | again c ho => exact withinCapacity_of hs rfl rfl fun _ => le_refl _
  | book => exact withinCapacity_of hs rfl rfl fun _ => le_refl _

theorem popEventWord_parts (s : State) : ∃ events, s.popEventWord = { s with events := events } := by
  unfold State.popEventWord
  split
  · exact ⟨s.events, rfl⟩
  · split <;> exact ⟨_, rfl⟩

theorem resetBlocks_capacity (s : State) (powerOn : Bool) : (s.resetBlocks powerOn).WithinCapacity := by
  refine ⟨Nat.zero_le _, Nat.zero_le _, fun n => ?_⟩
  simp [State.resetBlocks, Station.reset]

theorem Turn.capacity {s t : State} (h : Turn s t) (hs : s.WithinCapacity) : t.WithinCapacity := by
  have hsame {t : State} (hq : t.queue = s.queue) (hl : t.list.entries = s.list.entries) (hw : t.stations = s.stations) :
      t.WithinCapacity := withinCapacity_of hs (by rw [hq]) hl fun n => by rw [hw]
  have hupd (n : StationId) (f : Station → Station) (hf : ∀ x, (f x).watches = x.watches) :
      (s.updStation n f).WithinCapacity :=
    withinCapacity_of hs rfl rfl fun m => le_of_eq (congrArg List.length (upd_get_proj n m Station.watches (hf _)))
  cases h with
  | holdHalt ho => exact withinCapacity_of hs rfl rfl fun n => by rw [haltTaken_watches]; exact Nat.zero_le _
  | popWord =>
    obtain ⟨events, heq⟩ := popEventWord_parts s
    rw [heq]
    exact hsame rfl rfl rfl
  | stationConfig n c ho hc => exact hupd n _ fun _ => rfl
  | clearFailed n ho hr => exact hupd n _ fun _ => rfl
  | switchOn n ho hchecks => exact hupd n _ fun _ => rfl
  | start hrun ho hhld hchecks =>
    refine withinCapacity_of hs rfl rfl fun n => ?_
    change (mapAll _ s.stations)[n].watches.length ≤ _
    rw [mapAll_get]
    exact le_refl _
  | stop => exact ⟨Nat.zero_le _, Nat.zero_le _, fun n => by rw [returnToSetup_watches]; exact Nat.zero_le _⟩
  | clear ho =>
    refine withinCapacity_of hs rfl rfl fun n => ?_
    change (mapAll _ s.stations)[n].watches.length ≤ _
    rw [mapAll_get]
  | _ => exact hsame rfl rfl rfl

theorem kept_withinCapacity : Kept State.WithinCapacity where
  work _ _ _ h hs := h.capacity hs
  settles _ _ h hs := h.capacity hs
  turn _ _ h hs := h.capacity hs
  idle _ _ _ _ _ hs := withinCapacity_of hs rfl rfl fun _ => le_refl _
  blocks s p _ powerOn := withinCapacity_of (resetBlocks_capacity { s with pins := p } powerOn) rfl rfl fun _ => le_refl _

/-! ### The event queue -/

/-- An EVENTS_LOST record that counts one more is still an EVENTS_LOST record. -/
theorem loseOne_kind (r : EventRecord) : r.loseOne.kind = r.kind := by
  unfold EventRecord.loseOne
  split <;> rfl

theorem arrive_eventsSound {s : State} (r : EventRecord) (hs : s.EventsSound) : (s.arrive r).EventsSound := by
  obtain ⟨hroom, hlast, hindex, hthreshold⟩ := hs
  have hsame : arrivedRecords s.events s.position.tracking r = s.events.records → (s.arrive r).EventsSound := by
    intro h
    rw [arrive_eq, h]
    exact ⟨hroom, hlast, hindex, hthreshold⟩
  have happend (x : EventRecord) (h : arrivedRecords s.events s.position.tracking r = s.events.records ++ [x])
      (hlen : s.events.records.length < 32) (hx : s.events.records.length = 31 → x.kind = .eventsLost) :
      (s.arrive r).EventsSound := by
    rw [arrive_eq, h]
    refine ⟨?_, fun h32 => ⟨_, x, rfl, hx ?_⟩, fun hnil => ?_, hthreshold⟩
    · simp only [List.length_append, List.length_singleton]
      omega
    · simp only [List.length_append, List.length_singleton] at h32
      omega
    · simp at hnil
  unfold arrivedRecords at hsame happend
  by_cases hm : s.events.masks r.kind = true
  · exact hsame (by rw [if_pos hm])
  · rw [if_neg hm] at hsame happend
    by_cases h30 : s.events.records.length + 2 ≤ 32
    · rw [if_pos h30] at happend
      exact happend r rfl (by omega) (by omega)
    · rw [if_neg h30] at hsame happend
      by_cases h31 : s.events.records.length + 1 = 32
      · rw [if_pos h31] at happend
        exact happend _ rfl (by omega) fun _ => rfl
      · obtain ⟨older, lost, hrecords, hkind⟩ := hlast (by omega)
        have harrived : arrivedRecords s.events s.position.tracking r = older ++ [lost.loseOne] := by
          rw [arrivedRecords, if_neg hm, if_neg h30, if_neg h31, hrecords, mapLast_append]
        rw [arrive_eq, harrived]
        refine ⟨?_, fun _ => ⟨older, _, rfl, (loseOne_kind lost).trans hkind⟩, fun hnil => ?_, hthreshold⟩
        · rw [hrecords] at hroom
          simpa using hroom
        · simp at hnil

theorem eventsSound_of {s t : State} (hs : s.EventsSound) (hr : t.events.records = s.events.records)
    (hi : t.events.index = s.events.index) (ht : t.events.threshold = s.events.threshold) : t.EventsSound :=
  ⟨by rw [hr]; exact hs.room, by rw [hr]; exact hs.last, by rw [hr, hi]; exact hs.index, by rw [ht]; exact hs.threshold⟩

theorem Work.eventsSound {w : Worker} {s t : State} (h : Work w s t) (hs : s.EventsSound) : t.EventsSound := by
  have hsame {t : State} (he : t.events = s.events) : t.EventsSound :=
    eventsSound_of hs (by rw [he]) (by rw [he]) (by rw [he])
  have hplaced {rest : List Entry} {n : StationId} {fire : Pos} {i : Item} {placed : State}
      (hp : (s.left rest).placeHolder n fire i = some placed) : placed.events = s.events := by
    obtain ⟨pos, r, rfl, -⟩ | rfl := placeHolder_cases hp <;> rfl
  cases h with
  | note h =>
    cases h with
    | event r => exact arrive_eventsSound r hs
    | lane l f hf => exact hsame rfl
    | detector l d hon hd => exact hsame rfl
    | item tag f hf => exact hsame rfl
  | enrol l pos tag => exact hsame (by rw [enroll_eq])
  | activate e rest n i placed ho ht hk hp => exact hsame (hplaced hp)
  | activateWatch e rest n i placed ho ht hk hp => exact hsame (t := placed.appendWatch n i.tag i.lane) (hplaced hp :)
  | fail n hr => exact hsame (failing_parts s n).2.2.2.2
  | _ => exact hsame rfl

theorem popEventWord_eventsSound {s : State} (hs : s.EventsSound) : s.popEventWord.EventsSound := by
  obtain ⟨hroom, hlast, hindex, hthreshold⟩ := hs
  unfold State.popEventWord
  split
  · exact ⟨hroom, hlast, hindex, hthreshold⟩
  next r rest hrecords =>
    rw [hrecords] at hroom
    split
    · refine ⟨?_, fun h32 => ?_, fun _ => rfl, hthreshold⟩
      · simp only [List.length_cons] at hroom
        exact Nat.le_of_succ_le hroom
      · simp only [List.length_cons] at hroom
        have h32 : rest.length = 32 := h32
        omega
    · refine ⟨by rw [hrecords]; exact hroom, hlast, fun hnil => ?_, hthreshold⟩
      rw [hrecords] at hnil
      cases hnil

theorem heldThreshold_range (value : Word) : 1 ≤ (heldThreshold value).toNat ∧ (heldThreshold value).toNat ≤ 32 := by
  unfold heldThreshold
  split
  · decide
  next hne =>
    split
    · decide
    next hle =>
      have hpos : value.toNat ≠ 0 := fun h => hne (BitVec.eq_of_toNat_eq h)
      have hword : (value.extractLsb' 0 6).toNat = value.toNat := by
        rw [BitVec.extractLsb'_toNat, Nat.shiftRight_zero]
        omega
      rw [hword]
      omega

theorem Turn.eventsSound {s t : State} (h : Turn s t) (hs : s.EventsSound) : t.EventsSound := by
  cases h with
  | popWord => exact popEventWord_eventsSound hs
  | rewind => exact ⟨hs.room, hs.last, fun _ => rfl, hs.threshold⟩
  | threshold value => exact ⟨hs.room, hs.last, hs.index, heldThreshold_range value⟩
  | clear ho => exact ⟨Nat.zero_le _, fun h => (nomatch h), fun _ => rfl, hs.threshold⟩
  | _ => exact eventsSound_of hs rfl rfl rfl

theorem kept_eventsSound : Kept State.EventsSound where
  work _ _ _ h hs := h.eventsSound hs
  settles _ _ h hs := by cases h <;> exact eventsSound_of hs rfl rfl rfl
  turn _ _ h hs := h.eventsSound hs
  idle _ _ _ _ _ hs := eventsSound_of hs rfl rfl rfl
  blocks _ _ _ _ := ⟨Nat.zero_le _, fun h => (nomatch h), fun _ => rfl, heldThreshold_range 1⟩

/-- Settles O52: each work, taken alone, keeps the lengths, and so does each other piece of a step. -/
theorem capacitiesAreKept : Obligations.CapacitiesAreKept := ⟨kept_withinCapacity.step, kept_eventsSound.step⟩

end Sys2Proof.Machine
end

section
/-! PROOFS. SETUP is empty, and stations out of service have no work (O53). -/

namespace Sys2Proof.Machine

/-! ### SETUP -/

/-- Nothing is tracked, planned, watched or held (R7, R18, R62, R85, R90). -/
structure State.Empty (s : State) : Prop where
  tracking : s.position.tracking = s.position.counter
  firing : s.list.firingPoint = s.position.counter
  detectors : ∀ l : LaneId, s.lanes[l].detector = .off
  queue : s.queue.items = []
  list : s.list.entries = []
  stations : ∀ n : StationId, s.stations[n].runtime = .disabled ∧ s.stations[n].pulse = none ∧ s.stations[n].watches = []

theorem setupIsEmpty_iff {s : State} : s.SetupIsEmpty ↔ (s.control.op = .setup → s.Empty) :=
  ⟨fun h ho => ⟨h.tracking ho, h.firing ho, h.detectors ho, h.queue ho, h.list ho, h.stations ho⟩,
    fun h => ⟨fun ho => (h ho).1, fun ho => (h ho).2, fun ho => (h ho).3, fun ho => (h ho).4, fun ho => (h ho).5,
      fun ho => (h ho).6⟩⟩

/-- From an empty list nothing is taken. -/
theorem not_takes_nil {s : State} {p : Entry → Bool} {e : Entry} {rest : List Entry} (h : s.Takes p e rest) :
    s.list.entries ≠ [] := by
  intro hnil
  rw [State.Takes, hnil] at h
  cases h

theorem Note.empty {s t : State} (h : Note s t) (hs : s.Empty) : t.Empty := by
  obtain ⟨htracking, hfiring, hdetectors, hqueue, hlist, hstations⟩ := hs
  cases h with
  | event r =>
    rw [arrive_eq]
    exact ⟨htracking, hfiring, hdetectors, hqueue, hlist, hstations⟩
  | lane l f hf =>
    refine ⟨htracking, hfiring, fun m => ?_, hqueue, hlist, hstations⟩
    exact (upd_get_proj l m Lane.detector (hf _).2).trans (hdetectors m)
  | detector l d hon hd => exact absurd (hdetectors l) hon
  | item tag f hf =>
    refine ⟨htracking, hfiring, hdetectors, ?_, hlist, hstations⟩
    rw [State.updItem, hqueue]
    rfl

/-- In SETUP the blocks have nothing to work on. -/
theorem Work.empty {w : Worker} {s t : State} (h : Work w s t) (ho : s.control.op = .setup) (hs : s.Empty) : t.Empty := by
  have hdisabled (n : StationId) : s.stations[n].runtime ≠ .enabled := (hs.stations n).1.trans_ne (by simp)
  cases h with
  | note h => exact h.empty hs
  | enrol l pos tag hw hb hpos hq => exact absurd (hs.detectors l) hpos.on
  | request c => exact ⟨hs.1, hs.2, hs.3, hs.4, hs.5, hs.6⟩
  | drop p e rest ht => exact absurd hs.list (not_takes_nil ht)
  | activate e rest n i placed ho' => exact absurd (ho.symm.trans ho') (by simp)
  | activateWatch e rest n i placed ho' => exact absurd (ho.symm.trans ho') (by simp)
  | retire p e rest ht => exact absurd hs.list (not_takes_nil ht)
  | cancel tag =>
    obtain ⟨htracking, hfiring, hdetectors, hqueue, hlist, hstations⟩ := hs
    refine ⟨htracking, hfiring, hdetectors, ?_, ?_, hstations⟩
    · change s.queue.items.filter _ = []
      rw [hqueue]
      rfl
    · change (s.list.entries.filter _).map _ = []
      rw [hlist]
      rfl
  | rekey tag t =>
    refine ⟨hs.1, hs.2, hs.3, hs.4, ?_, hs.6⟩
    rw [rekey_entries, hs.list]
    rfl
  | stations v hv =>
    refine ⟨hs.1, hs.2, hs.3, hs.4, hs.5, fun n => ?_⟩
    obtain ⟨hruntime, hpulse, hwatches⟩ := hs.stations n
    obtain ⟨-, hr, hp, hw⟩ := hv n
    rw [hwatches] at hw
    exact ⟨hr.trans hruntime, hp hpulse, List.length_eq_zero_iff.1 (Nat.le_zero.1 hw)⟩
  | withdraw n hr => exact absurd hr (hdisabled n)
  | fail n hr => exact absurd hr (hdisabled n)
  | overtake n new hr => exact absurd hr (hdisabled n)
  | mark ho' => exact absurd (ho.symm.trans ho') (by simp)

theorem empty_of {s t : State} (hs : s.Empty) (hp : t.position.tracking = s.position.tracking)
    (hc : t.position.counter = s.position.counter) (hl : t.list = s.list)
    (hd : ∀ l : LaneId, t.lanes[l].detector = s.lanes[l].detector) (hq : t.queue.items = s.queue.items)
    (hst : ∀ n : StationId, t.stations[n].runtime = s.stations[n].runtime ∧ t.stations[n].pulse = s.stations[n].pulse
      ∧ t.stations[n].watches = s.stations[n].watches) : t.Empty := by
  refine ⟨by rw [hp, hc]; exact hs.1, by rw [hl, hc]; exact hs.2, fun l => by rw [hd]; exact hs.3 l, by rw [hq]; exact hs.4,
    by rw [hl]; exact hs.5, fun n => ?_⟩
  rw [(hst n).1, (hst n).2.1, (hst n).2.2]
  exact hs.6 n

theorem reverse_eq_zero {s : State} : s.reverse = 0 ↔ s.position.tracking = s.position.counter := by
  rw [State.reverse]
  exact sub_eq_zero

theorem returnToSetup_empty (s : State) : s.returnToSetup.Empty := by
  have hposition : (if s.reverse = 0 then s.position.tracking else s.position.counter) = s.position.counter := by
    split
    next h => exact reverse_eq_zero.1 h
    next => rfl
  refine ⟨hposition, hposition, fun l => ?_, rfl, rfl, fun n => ?_⟩
  · change (mapAll _ s.lanes)[l].detector = .off
    rw [mapAll_get]
    rfl
  · change (mapAll _ s.stations)[n].runtime = .disabled ∧ (mapAll _ s.stations)[n].pulse = none
      ∧ (mapAll _ s.stations)[n].watches = []
    rw [mapAll_get]
    exact ⟨rfl, rfl, rfl⟩

theorem clearRun_empty {s : State} (hs : s.Empty) : s.clearRun.Empty := by
  refine empty_of hs rfl rfl rfl (fun l => ?_) rfl fun n => ?_
  · change (mapAll _ s.lanes)[l].detector = _
    rw [mapAll_get]
  · change (mapAll _ s.stations)[n].runtime = _ ∧ (mapAll _ s.stations)[n].pulse = _ ∧ (mapAll _ s.stations)[n].watches = _
    rw [mapAll_get]
    exact ⟨rfl, rfl, rfl⟩

theorem popEventWord_control (s : State) : s.popEventWord.control = s.control := by
  obtain ⟨events, heq⟩ := popEventWord_parts s
  rw [heq]

theorem Turn.setupIsEmpty {s t : State} (h : Turn s t) (hs : s.SetupIsEmpty) : t.SetupIsEmpty := by
  rw [setupIsEmpty_iff] at hs ⊢
  intro hop
  have hsame {t : State} (ho : s.control.op = .setup) (hp : t.position.tracking = s.position.tracking)
      (hc : t.position.counter = s.position.counter) (hl : t.list = s.list) (hd : t.lanes = s.lanes)
      (hq : t.queue = s.queue) (hst : t.stations = s.stations) : t.Empty :=
    empty_of (hs ho) hp hc hl (fun l => by rw [hd]) (by rw [hq]) fun n => by rw [hst]; exact ⟨rfl, rfl, rfl⟩
  cases h with
  | holdHalt ho => cases hop
  | setupMove counter ho =>
    exact ⟨rfl, rfl, (hs ho).3, (hs ho).4, (hs ho).5, (hs ho).6⟩
  | stepped ho hr => exact absurd hop ho
  | shift counter ho => exact absurd hop ho
  | settle ho => exact absurd (Eq.symm hop |>.trans ho) (by simp)
  | popWord =>
    rw [popEventWord_control] at hop
    obtain ⟨events, heq⟩ := popEventWord_parts s
    rw [heq]
    exact hsame hop rfl rfl rfl rfl rfl rfl
  | laneConfig l c ho hc =>
    exact empty_of (hs ho) rfl rfl rfl (fun m => upd_get_proj l m Lane.detector rfl) rfl fun n => ⟨rfl, rfl, rfl⟩
  | stationConfig n c ho hc =>
    exact empty_of (hs ho) rfl rfl rfl (fun m => rfl) rfl fun m => ⟨upd_get_proj n m Station.runtime rfl,
      upd_get_proj n m Station.pulse rfl, upd_get_proj n m Station.watches rfl⟩
  | start hrun ho hhld hchecks => cases hop
  | stop => exact returnToSetup_empty s
  | clear ho => exact clearRun_empty (hs ho)
  | resume ho => cases hop
  | clearFailed n ho hr => exact absurd hop ho
  | switchOn n ho hchecks => exact absurd hop ho
  | _ => exact hsame hop rfl rfl rfl rfl rfl rfl

theorem resetBlocks_empty (s : State) (powerOn : Bool) : (s.resetBlocks powerOn).Empty := by
  refine ⟨rfl, rfl, fun l => ?_, rfl, rfl, fun n => ?_⟩
  · simp [State.resetBlocks, Lane.reset]
  · simp [State.resetBlocks, Station.reset]

theorem Settles.setupIsEmpty {s t : State} (h : Settles s t) (hs : s.SetupIsEmpty) : t.SetupIsEmpty := by
  cases h with
  | halt c ho => exact setupIsEmpty_iff.2 fun hop => nomatch hop
  | again c ho => exact setupIsEmpty_iff.2 fun hop => absurd (ho.symm.trans hop) (by simp)
  | book => exact ⟨hs.1, hs.2, hs.3, hs.4, hs.5, hs.6⟩

theorem kept_setupIsEmpty : Kept State.SetupIsEmpty where
  work s t w h hs := by
    rw [setupIsEmpty_iff] at hs ⊢
    intro hop
    have ho := h.frame.op.symm.trans hop
    exact h.empty ho (hs ho)
  settles _ _ h hs := h.setupIsEmpty hs
  turn _ _ h hs := h.setupIsEmpty hs
  idle _ _ _ _ _ hs := ⟨hs.1, hs.2, hs.3, hs.4, hs.5, hs.6⟩
  blocks s p _ powerOn := setupIsEmpty_iff.2 fun _ =>
    have hreset := resetBlocks_empty { s with pins := p } powerOn
    ⟨hreset.1, hreset.2, hreset.3, hreset.4, hreset.5, hreset.6⟩

/-! ### Stations out of service -/

/-- What re-keying leaves in the list: an entry as it was, or a re-keyable OFF entry without its mark, at its place or
moved to a candidate that is not reached (R79). -/
theorem mem_rekey {s : State} {tag : Tag} {t : Pos} {x : Entry} (h : x ∈ (s.rekey tag t).list.entries) :
    x ∈ s.list.entries ∨ ∃ e ∈ s.list.entries, e.rekeysFor tag = true
      ∧ (x = e.unmark ∨ ∃ c, x = { e.unmark with fire := c } ∧ s.hasReached c = false ∧ behind c e.fire = true) := by
  have hmem := (rekey_perm s tag t).mem_iff.1 h
  rw [List.mem_append, List.mem_filterMap, List.mem_filterMap] at hmem
  obtain ⟨e, he, hx⟩ | ⟨e, he, hx⟩ := hmem
  all_goals
    obtain ⟨hkept, hmoved⟩ | ⟨hfor, hkept, hmoved⟩ | ⟨hfor, hkept, hmoved⟩ | ⟨hfor, hkept, c, hmoved, hc⟩ :=
      rekey_cases s tag t e
  · rw [hmoved] at hx; cases hx
  · rw [hmoved] at hx; cases hx
  · rw [hmoved] at hx; cases hx
  · rw [hmoved] at hx
    exact .inr ⟨e, he, hfor, .inr ⟨c, (Option.some.inj hx).symm, hc⟩⟩
  · rw [hkept] at hx
    exact .inl (Option.some.inj hx ▸ he)
  · rw [hkept] at hx
    exact .inr ⟨e, he, hfor, .inl (Option.some.inj hx).symm⟩
  · rw [hkept] at hx; cases hx
  · rw [hkept] at hx; cases hx

theorem unmark_kind_on {e : Entry} {n : StationId} : e.unmark.kind = .on n ↔ e.kind = .on n := by
  rw [← isOnOf_iff, ← isOnOf_iff, unmark_isOnOf]

theorem on_ne_of_rekeysFor {e : Entry} {tag : Tag} (h : e.rekeysFor tag = true) (n : StationId) :
    e.unmark.kind ≠ .on n := by
  intro hk
  obtain ⟨m, hoff, -⟩ := rekeysFor_iff.1 h
  rw [unmark_kind_on, hoff] at hk
  cases hk

theorem mem_laneStations {s : State} {l : LaneId} {n : StationId} :
    n ∈ s.laneStations l ↔ s.stations[n].runtime = .enabled ∧ s.stations[n].config.lane = l := by
  simp [State.laneStations, State.servesLane]

/-- The planned entries of an item, by kind (R69). -/
theorem mem_plan {s : State} {l : LaneId} {leading : Pos} {tag : Tag} {x : Entry} (h : x ∈ s.plan l leading tag) :
    x = Entry.make .retire (leading + wide s.lanes[l].config.exit) tag
      ∨ (s.hasDecisionPoint l = true ∧ x = Entry.make .deadline (leading + wide s.lanes[l].config.decision) tag)
      ∨ ∃ n : StationId, s.stations[n].runtime = .enabled ∧ s.stations[n].config.lane = l
          ∧ x = Entry.make (.on n) (leading + wide s.stations[n].config.offset) tag := by
  rw [State.plan, List.mem_append, List.mem_append, List.mem_map, List.mem_singleton] at h
  obtain (hretire | hdeadline) | ⟨n, hn, rfl⟩ := h
  · exact .inl hretire
  · split at hdeadline
    next hpoint => exact .inr (.inl ⟨hpoint, List.mem_singleton.1 hdeadline⟩)
    next => cases hdeadline
  · obtain ⟨hr, hl⟩ := mem_laneStations.1 hn
    exact .inr (.inr ⟨n, hr, hl, rfl⟩)

/-- Station `n` has no watch and no ON entry. -/
def State.Unused (s : State) (n : StationId) : Prop := s.stations[n].watches = [] ∧ ∀ e ∈ s.list.entries, e.kind ≠ .on n

/-- A station that is not ENABLED is not used. -/
def State.OutOfServiceUnused (s : State) : Prop := ∀ n : StationId, s.stations[n].runtime ≠ .enabled → s.Unused n

theorem outOfService_of {s t : State} (hs : s.OutOfServiceUnused)
    (hr : ∀ n : StationId, t.stations[n].runtime ≠ .enabled → s.stations[n].runtime ≠ .enabled)
    (hw : ∀ n : StationId, t.stations[n].runtime ≠ .enabled → s.stations[n].watches = [] → t.stations[n].watches = [])
    (hl : ∀ n : StationId, t.stations[n].runtime ≠ .enabled → ∀ e ∈ t.list.entries, e.kind = .on n →
      ∃ x ∈ s.list.entries, x.kind = .on n) : t.OutOfServiceUnused := by
  intro n hn
  obtain ⟨hwatches, hentries⟩ := hs n (hr n hn)
  refine ⟨hw n hn hwatches, fun e he hk => ?_⟩
  obtain ⟨x, hx, hkx⟩ := hl n hn e he hk
  exact hentries x hx hkx

theorem mem_of_takes {s : State} {p : Entry → Bool} {e : Entry} {rest : List Entry} (h : s.Takes p e rest) :
    e ∈ s.list.entries := (takeFirst_perm h).mem_iff.2 List.mem_cons_self

theorem mem_of_mem_rest {s : State} {p : Entry → Bool} {e x : Entry} {rest : List Entry} (h : s.Takes p e rest)
    (hx : x ∈ rest) : x ∈ s.list.entries := (takeFirst_sublist h).subset hx

/-- After an activation the list holds its OFF entry beside what was left. -/
theorem mem_placeHolder {s t : State} {n : StationId} {fire : Pos} {i : Item} (h : s.placeHolder n fire i = some t)
    {x : Entry} (hx : x ∈ t.list.entries) : x ∈ s.list.entries ∨ x.isOff = true := by
  obtain ⟨pos, r, rfl, -⟩ | rfl := placeHolder_cases h
  · obtain rfl | hx := insertEntry_mem.1 hx
    · exact .inr rfl
    · exact .inl hx
  · exact .inl hx

theorem not_on_of_isOff {e : Entry} (h : e.isOff = true) (n : StationId) : e.kind ≠ .on n := by
  intro hk
  simp [Entry.isOff, hk] at h

theorem mem_freeItem {s : State} {tag : Tag} {x : Entry} (h : x ∈ (s.freeItem tag).list.entries) :
    ∃ e ∈ s.list.entries, x = if e.tag = tag then e.unmark else e := by
  rw [freeItem_entries, List.mem_map] at h
  obtain ⟨e, he, rfl⟩ := h
  exact ⟨e, he, rfl⟩

theorem ite_unmark_kind_on {p : Prop} [Decidable p] {e : Entry} {n : StationId}
    (h : (if p then e.unmark else e).kind = .on n) : e.kind = .on n := by
  split at h
  · exact unmark_kind_on.1 h
  · exact h

theorem withdraw_outOfService {s : State} (hs : s.OutOfServiceUnused) (n : StationId) (r : Runtime) :
    (s.withdraw n r).OutOfServiceUnused := by
  intro m hm
  change (upd s.stations n _)[m].runtime ≠ .enabled at hm
  change (upd s.stations n _)[m].watches = [] ∧ ∀ e ∈ s.list.entries.filter _, e.kind ≠ .on m
  rw [upd_get] at hm ⊢
  by_cases h : m = n
  · subst h
    rw [if_pos rfl]
    refine ⟨rfl, fun e he hk => ?_⟩
    have hnot := (List.mem_filter.1 he).2
    rw [isOnOf_iff.2 hk] at hnot
    contradiction
  · rw [if_neg h] at hm ⊢
    obtain ⟨hwatches, hentries⟩ := hs m hm
    exact ⟨hwatches, fun e he => hentries e (List.mem_filter.1 he).1⟩

theorem Work.outOfService {w : Worker} {s t : State} (h : Work w s t) (hs : s.OutOfServiceUnused) :
    t.OutOfServiceUnused := by
  have hlist {t : State} (hst : t.stations = s.stations)
      (hl : ∀ e ∈ t.list.entries, ∀ n, e.kind = .on n → ∃ x ∈ s.list.entries, x.kind = .on n) : t.OutOfServiceUnused :=
    outOfService_of hs (fun n => by rw [hst]; exact id) (fun n _ => by rw [hst]; exact id) fun n _ e he => hl e he n
  have hsame {t : State} (hst : t.stations = s.stations) (hl : t.list = s.list) : t.OutOfServiceUnused :=
    hlist hst fun e he n hk => ⟨e, hl ▸ he, hk⟩
  have hfree (tag : Tag) (es : List Entry) (hes : ∀ e ∈ es, e ∈ s.list.entries) :
      ∀ e ∈ ((s.left es).freeItem tag).list.entries, ∀ n, e.kind = .on n → ∃ x ∈ s.list.entries, x.kind = .on n := by
    intro e he n hk
    obtain ⟨y, hy, rfl⟩ := mem_freeItem he
    exact ⟨y, hes y hy, ite_unmark_kind_on hk⟩
  cases h with
  | note h =>
    obtain ⟨hl, -, hst, -⟩ := h.parts
    exact hsame hst hl
  | enrol l pos tag hw hb hpos hq =>
    have hstations : (s.enroll l pos tag).stations = s.stations := by rw [enroll_eq]
    refine outOfService_of hs (fun n => by rw [hstations]; exact id) (fun n _ => by rw [hstations]; exact id)
      fun n hn e he hk => ?_
    rw [hstations] at hn
    obtain hplan | hold := List.mem_append.1 ((enroll_perm s l pos tag).mem_iff.1 he)
    · obtain rfl | ⟨-, rfl⟩ | ⟨m, hm, -, rfl⟩ := mem_plan hplan
      · cases hk
      · cases hk
      · cases hk
        exact absurd hm hn
    · exact ⟨e, hold, hk⟩
  | request c => exact hsame rfl rfl
  | drop p e rest ht => exact hlist rfl fun x hx n hk => ⟨x, mem_of_mem_rest ht hx, hk⟩
  | activate e rest n i placed ho ht hk hp =>
    refine outOfService_of hs (fun m => ?_) (fun m _ => ?_) fun m _ x hx hkx => ?_
    · rw [(placeHolder_watches hp m).2]
      exact id
    · rw [(placeHolder_watches hp m).1]
      exact id
    · obtain hx | hoff := mem_placeHolder hp hx
      · exact ⟨x, mem_of_mem_rest ht hx, hkx⟩
      · exact absurd hkx (not_on_of_isOff hoff m)
  | activateWatch e rest n i placed ho ht hk hp hroom =>
    have henabled : s.stations[n].runtime = .enabled := by
      by_contra hne
      exact (hs n hne).2 e (mem_of_takes ht) hk
    have hruntime (m : StationId) : (placed.appendWatch n i.tag i.lane).stations[m].runtime = s.stations[m].runtime :=
      (upd_get_proj n m Station.runtime rfl).trans (placeHolder_watches hp m).2
    refine outOfService_of hs (fun m => by rw [hruntime]; exact id) (fun m hm hw => ?_) fun m _ x hx hkx => ?_
    · rw [hruntime] at hm
      have hne : m ≠ n := fun h => hm (h ▸ henabled)
      change (upd placed.stations n _)[m].watches = []
      rw [upd_get_other hne, (placeHolder_watches hp m).1]
      exact hw
    · obtain hx | hoff := mem_placeHolder (t := placed) hp hx
      · exact ⟨x, mem_of_mem_rest ht hx, hkx⟩
      · exact absurd hkx (not_on_of_isOff hoff m)
  | retire p e rest ht => exact hlist rfl (hfree e.tag rest fun x hx => mem_of_mem_rest ht hx)
  | cancel tag => exact hlist rfl (hfree tag _ fun x hx => (List.mem_filter.1 hx).1)
  | rekey tag t =>
    refine hlist rfl fun x hx n hk => ?_
    obtain hx | ⟨e, he, hfor, rfl | ⟨c, rfl, -⟩⟩ := mem_rekey hx
    · exact ⟨x, hx, hk⟩
    · exact absurd hk (on_ne_of_rekeysFor hfor n)
    · exact absurd hk (on_ne_of_rekeysFor hfor n)
  | stations v hv =>
    refine outOfService_of hs (fun n => ?_) (fun n _ hw => ?_) fun n _ e he hk => ⟨e, he, hk⟩
    · exact fun h => by rwa [← (hv n).2.1]
    · have hle := (hv n).2.2.2
      rw [hw] at hle
      exact List.length_eq_zero_iff.1 (Nat.le_zero.1 hle)
  | withdraw n hr => exact withdraw_outOfService hs n .disabled
  | fail n hr =>
    have h := withdraw_outOfService hs n .failed
    obtain ⟨hl, hst, -⟩ := failing_parts s n
    unfold State.OutOfServiceUnused State.Unused at h ⊢
    rwa [hl, hst]
  | overtake n new hr hfull =>
    refine outOfService_of hs (fun m => ?_) (fun m hm hw => ?_) fun m _ e he hk => ⟨e, he, hk⟩
    · rw [State.updStation, upd_get_proj n m Station.runtime rfl]
      exact id
    · rw [State.updStation, upd_get_proj n m Station.runtime rfl] at hm
      have hne : m ≠ n := fun h => hm (h ▸ hr)
      rw [State.updStation, upd_get_other hne]
      exact hw
  | mark ho =>
    refine hlist rfl fun x hx n hk => ?_
    obtain ⟨e, he, rfl⟩ := List.mem_map.1 hx
    refine ⟨e, he, ?_⟩
    split at hk
    · exact hk
    · exact hk

/-- In HALTED no station has a watch. -/
def State.HaltedUnwatched (s : State) : Prop := s.control.op = .halted → ∀ n : StationId, s.stations[n].watches = []

theorem Work.haltedUnwatched {w : Worker} {s t : State} (h : Work w s t) (hs : s.HaltedUnwatched) : t.HaltedUnwatched := by
  intro hop n
  have ho : s.control.op = .halted := h.frame.op.symm.trans hop
  have hnone := hs ho
  have hwithdraw (n m : StationId) (r : Runtime) : (s.withdraw n r).stations[m].watches = [] :=
    upd_forall (P := fun _ (st : Station) => st.watches = []) n hnone (fun _ => rfl) m
  cases h with
  | note h =>
    rw [h.parts.2.2.1]
    exact hnone n
  | enrol l pos tag =>
    rw [enroll_eq]
    exact hnone n
  | activate e rest m i placed ho' => exact absurd (ho.symm.trans ho') (by simp)
  | activateWatch e rest m i placed ho' => exact absurd (ho.symm.trans ho') (by simp)
  | stations v hv =>
    have hle := (hv n).2.2.2
    rw [hnone n] at hle
    exact List.length_eq_zero_iff.1 (Nat.le_zero.1 hle)
  | withdraw m hr => exact hwithdraw m n .disabled
  | fail m hr =>
    rw [(failing_parts s m).2.1]
    exact hwithdraw m n .failed
  | overtake m new hr hfull =>
    rw [hnone m] at hfull
    exact absurd hfull (by simp)
  | _ => exact hnone n

theorem Turn.stationsServed {s t : State} (h : Turn s t) (hs : s.StationsServed) : t.StationsServed := by
  refine ⟨h.setupIsEmpty hs.setup, ?_, ?_⟩
  · have hout : s.OutOfServiceUnused := hs.outOfService
    change t.OutOfServiceUnused
    have hsame {t : State} (hst : t.stations = s.stations) (hl : t.list.entries = s.list.entries) :
        t.OutOfServiceUnused := by
      unfold State.OutOfServiceUnused State.Unused
      rw [hst, hl]
      exact hout
    have hupd (n : StationId) (f : Station → Station) (hw : ∀ x, (f x).watches = x.watches)
        (hr : (f s.stations[n]).runtime ≠ .enabled → s.stations[n].runtime ≠ .enabled) :
        (s.updStation n f).OutOfServiceUnused := by
      refine outOfService_of hout (fun m hm => ?_) (fun m _ hwatches => ?_) fun m _ e he hk => ⟨e, he, hk⟩
      · rw [State.updStation, upd_get] at hm
        split at hm
        next h =>
          subst h
          exact hr hm
        next => exact hm
      · exact (upd_get_proj n m Station.watches (hw _)).trans hwatches
    cases h with
    | holdHalt ho =>
      refine outOfService_of hout (fun n => ?_) (fun n _ _ => haltTaken_watches _ _ n) fun n _ e he hk => ⟨e, he, hk⟩
      change (mapAll _ s.stations)[n].runtime ≠ .enabled → _
      rw [mapAll_get]
      exact id
    | popWord =>
      obtain ⟨events, heq⟩ := popEventWord_parts s
      rw [heq]
      exact hsame rfl rfl
    | stationConfig n c ho hc => exact hupd n _ (fun _ => rfl) id
    | start hrun ho hhld hchecks =>
      intro n _
      refine ⟨?_, fun e he => ?_⟩
      · change (mapAll _ s.stations)[n].watches = []
        rw [mapAll_get]
        exact (hs.setup.stations ho n).2.2
      · have he : e ∈ s.list.entries := he
        rw [hs.setup.list ho] at he
        cases he
    | stop => exact fun n _ => ⟨returnToSetup_watches s n, fun e he => nomatch he⟩
    | clear ho =>
      refine outOfService_of hout (fun n => ?_) (fun n _ hw => ?_) fun n _ e he hk => ⟨e, he, hk⟩
      · change (mapAll _ s.stations)[n].runtime ≠ .enabled → _
        rw [mapAll_get]
        exact id
      · change (mapAll _ s.stations)[n].watches = []
        rw [mapAll_get]
        exact hw
    | clearFailed n ho hr => exact hupd n _ (fun _ => rfl) fun _ => hr.trans_ne (by simp)
    | switchOn n ho hchecks => exact hupd n _ (fun _ => rfl) fun h => absurd rfl h
    | _ => exact hsame rfl rfl
  · have hhalted : s.HaltedUnwatched := hs.halted
    intro hop n
    cases h with
    | holdHalt ho => exact haltTaken_watches _ _ n
    | popWord =>
      rw [popEventWord_control] at hop
      obtain ⟨events, heq⟩ := popEventWord_parts s
      rw [heq]
      exact hhalted hop n
    | stationConfig m c ho hc => exact absurd (ho.symm.trans hop) (by simp)
    | start => cases hop
    | stop => cases hop
    | clear ho => exact absurd (ho.symm.trans hop) (by simp)
    | resume => cases hop
    | clearFailed m ho hr => exact (upd_get_proj m n Station.watches rfl).trans (hhalted hop n)
    | switchOn m ho hchecks => exact (upd_get_proj m n Station.watches rfl).trans (hhalted hop n)
    | _ => exact hhalted hop n

theorem Settles.stationsServed {s t : State} (h : Settles s t) (hs : s.StationsServed) : t.StationsServed := by
  refine ⟨h.setupIsEmpty hs.setup, ?_, ?_⟩
  · cases h with
    | halt c ho =>
      refine outOfService_of hs.outOfService (fun n => ?_) (fun n _ _ => haltTaken_watches _ _ n)
        fun n _ e he hk => ⟨e, he, hk⟩
      change (mapAll _ s.stations)[n].runtime ≠ .enabled → _
      rw [mapAll_get]
      exact id
    | again c ho => exact hs.outOfService
    | book => exact hs.outOfService
  · cases h with
    | halt c ho => exact fun _ => haltTaken_watches s c
    | again c ho => exact hs.halted
    | book => exact hs.halted

theorem kept_stationsServed : Kept State.StationsServed where
  work s t w h hs := ⟨kept_setupIsEmpty.work s t w h hs.setup, h.outOfService hs.outOfService, h.haltedUnwatched hs.halted⟩
  settles _ _ h hs := h.stationsServed hs
  turn _ _ h hs := h.stationsServed hs
  idle s power p hr hr' hs := ⟨kept_setupIsEmpty.idle s power p hr hr' hs.setup, hs.outOfService, hs.halted⟩
  blocks s p power powerOn := by
    have hempty := resetBlocks_empty { s with pins := p } powerOn
    exact ⟨kept_setupIsEmpty.blocks s p power powerOn,
      fun n _ => ⟨(hempty.stations n).2.2, fun e he => by cases hempty.list ▸ he⟩, fun hop => nomatch hop⟩

/-- Settles O53: an empty SETUP gives the blocks nothing to work on, and no work gives an entry or a watch to a station
that is not ENABLED. -/
theorem stationsAreServedInState : Obligations.StationsAreServedInState := ⟨kept_setupIsEmpty.step, kept_stationsServed.step⟩

end Sys2Proof.Machine
end

section
/-! PROOFS. The record of the halt, HLD, the output lines and the detectors (O54). -/

namespace Sys2Proof.Machine

/-! ### The record of the halt -/

theorem haltTaken_parts (s : State) (c : Cause) :
    (s.haltTaken c).power = s.power ∧ (s.haltTaken c).pins = s.pins ∧ (s.haltTaken c).position = s.position
      ∧ (s.haltTaken c).lanes = s.lanes ∧ (s.haltTaken c).queue = s.queue
      ∧ (s.haltTaken c).list.entries = s.list.entries ∧ (s.haltTaken c).cfmRef = s.cfmRef
      ∧ (s.haltTaken c).globals = s.globals ∧ (s.haltTaken c).control.hldAsserted = s.control.hldAsserted := by
  refine ⟨?_, ?_, ?_, ?_, ?_, ?_, ?_, ?_, ?_⟩ <;> simp [State.haltTaken]

/-- The cause fields by operating state (R140, R142, R169). -/
structure State.CausesRecorded (s : State) : Prop where
  tracking : s.control.op = .tracking → s.control.firstCause = none ∧ s.control.causeMask = 0
  halted : s.control.op = .halted → s.control.firstCause ≠ none
  mask : ∀ c, s.control.firstCause = some c → s.control.causeMask &&& c.bit = c.bit

theorem causesRecorded_congr {s t : State} (hs : s.CausesRecorded) (ho : t.control.op = s.control.op)
    (hf : t.control.firstCause = s.control.firstCause) (hm : t.control.causeMask = s.control.causeMask) :
    t.CausesRecorded :=
  ⟨by rw [ho, hf, hm]; exact hs.1, by rw [ho, hf]; exact hs.2, by rw [hf, hm]; exact hs.3⟩

/-- A bit that the mask has stays when another is added. -/
theorem mask_or {m b c : BitVec 6} (h : m &&& c = c) : (m ||| b) &&& c = c := by
  refine BitVec.eq_of_getLsbD_eq fun i _ => ?_
  have hi := congrArg (BitVec.getLsbD · i) h
  simp only [BitVec.getLsbD_and, BitVec.getLsbD_or] at hi ⊢
  cases hm : m.getLsbD i <;> cases hc : c.getLsbD i <;> simp_all

theorem mask_or_self (m b : BitVec 6) : (m ||| b) &&& b = b := by
  rw [BitVec.or_comm]
  exact mask_or BitVec.and_self

theorem haltTaken_causes (s : State) (c : Cause) : (s.haltTaken c).CausesRecorded := by
  refine ⟨fun h => (nomatch h), fun _ h => (nomatch h), fun d hd => ?_⟩
  obtain rfl := Option.some.inj hd
  exact mask_or_self ..

theorem Turn.causesRecorded {s t : State} (h : Turn s t) (hs : s.CausesRecorded) : t.CausesRecorded := by
  have hnone {op : OpState} {u : State} (ho : op ≠ .halted) (hu : u.control.op = op) (hf : u.control.firstCause = none)
      (hm : u.control.causeMask = 0) : u.CausesRecorded :=
    ⟨fun _ => ⟨hf, hm⟩, fun h => absurd (hu.symm.trans h) ho, fun c h => nomatch hf.symm.trans h⟩
  cases h with
  | holdHalt ho => exact haltTaken_causes _ .holdInput
  | popWord => exact causesRecorded_congr hs (by rw [popEventWord_control]) (by rw [popEventWord_control]) (by rw [popEventWord_control])
  | start => exact hnone (op := .tracking) (by simp) rfl rfl rfl
  | stop => exact ⟨fun h => (nomatch h), fun h => (nomatch h), hs.mask⟩
  | clear ho => exact hnone (by simp) ho rfl rfl
  | resume => exact hnone (op := .tracking) (by simp) rfl rfl rfl
  | _ => exact causesRecorded_congr hs rfl rfl rfl

theorem kept_causesRecorded : Kept State.CausesRecorded where
  work _ _ _ h hs := causesRecorded_congr hs h.frame.op h.frame.firstCause h.frame.causeMask
  settles s t h hs := by
    cases h with
    | halt c ho => exact haltTaken_causes s c
    | again c ho =>
      exact ⟨fun h => absurd (ho.symm.trans h) (by simp), hs.halted, fun d hd => mask_or (hs.mask d hd)⟩
    | book => exact causesRecorded_congr hs rfl rfl rfl
  turn _ _ h hs := h.causesRecorded hs
  idle _ _ _ _ _ hs := causesRecorded_congr hs rfl rfl rfl
  blocks _ _ _ _ := ⟨fun h => (nomatch h), fun h => (nomatch h), fun _ h => nomatch h⟩

/-! ### The requests on their way -/

/-- With none left to wait, taking requests takes them all. -/
theorem takeRequests_empties (fuel : Nat) (s : State) (h : s.control.requests.length ≤ fuel) :
    (s.takeRequests false fuel).control.requests = [] := by
  induction fuel generalizing s with
  | zero => exact List.length_eq_zero_iff.1 (Nat.le_zero.1 h)
  | succ fuel ih =>
    have harrivals : s.arrivals false = s.control.requests.map some := rfl
    simp only [State.takeRequests]
    split
    next hpick =>
      have hnone := pick_isSome (Config.choice s.choices) (s.arrivals false)
      rw [hpick, harrivals] at hnone
      simpa using hnone
    next rest hpick =>
      have hmem := (pick_perm hpick).mem_iff.2 List.mem_cons_self
      rw [harrivals] at hmem
      simp at hmem
    next c rest hpick =>
      refine ih _ ?_
      rw [takeHalt_requests, withRequests_requests]
      have hlength := pick_length hpick
      rw [harrivals, List.length_map] at hlength
      have hle := List.length_filterMap_le id rest
      omega

theorem op_ne_setup_takeHalt {s : State} (c : Cause) (ho : s.control.op ≠ .setup) : (s.takeHalt c).control.op ≠ .setup := by
  unfold State.takeHalt
  split
  next h => exact absurd h ho
  next =>
    rw [haltEntry_eq, report_eq, arrive_eq]
    simp [State.raiseInt, State.haltTaken]
  next => exact ho

theorem takeRequests_op {s : State} (mayWait : Bool) (fuel : Nat) (ho : s.control.op ≠ .setup) :
    (s.takeRequests mayWait fuel).control.op ≠ .setup := by
  refine takeRequests_induction (P := fun t => t.control.op ≠ .setup) (fun _ _ h => h) (fun t xs h => ?_)
    (fun t c h => op_ne_setup_takeHalt c h) mayWait fuel ho
  unfold State.countChoice
  split <;> exact h

theorem takeHalt_pending (s : State) (c : Cause) : (s.takeHalt c).pending = s.pending := by
  unfold State.takeHalt
  split
  · rfl
  · simp [haltEntry_eq, report_eq, arrive_eq, State.raiseInt, State.haltTaken]
  · rfl

theorem arriveHalts_pending (s : State) : s.arriveHalts.pending = s.pending := by
  refine arriveHalts_induction (P := fun t => t.pending = s.pending) (fun _ _ h => h) (fun t xs h => ?_)
    (fun t c h => (takeHalt_pending t c).trans h) rfl
  unfold State.countChoice
  split <;> exact h

/-- When requests have arrived none is on its way in SETUP, or with no command waiting (R140, R143). -/
theorem arriveHalts_requests (s : State) (h : s.arriveHalts.control.op = .setup ∨ s.pending = []) :
    s.arriveHalts.control.requests = [] := by
  cases ho : s.control.op with
  | setup =>
    rw [State.arriveHalts, ho]
    rfl
  | tracking | halted =>
    obtain hsetup | hpending := h
    · rw [State.arriveHalts, ho] at hsetup
      exact absurd hsetup (takeRequests_op _ _ (ho.trans_ne (by simp)))
    · rw [arriveHalts_settled hpending (ho.trans_ne (by simp))]
      exact takeRequests_empties _ s (le_refl _)

/-- No request is on its way in SETUP, in a part that does not run, or when no command waits. -/
structure State.RequestsSettled (s : State) : Prop where
  setup : s.control.op = .setup → s.control.requests = []
  stopped : s.running = false → s.control.requests = []
  settled : s.pending = [] → s.control.requests = []

theorem course_running {s t : State} (h : Course s t) (hs : s.running = true) : t.running = true := by
  have hcongr {s t : State} (hp : t.power = s.power) (hn : t.pins.resetN = s.pins.resetN) (hs : s.running = true) :
      t.running = true := by rwa [State.running, hp, hn]
  refine Course.induction (P := fun t => t.running = true) (fun s t w h => ?_) (fun s t h => ?_) (fun s t h => ?_) h hs
  · exact hcongr h.frame.power (by rw [h.frame.pins])
  · cases h with
    | halt c ho =>
      obtain ⟨hpower, hpins, -⟩ := haltTaken_parts s c
      exact hcongr hpower (by rw [hpins])
    | again c ho => exact id
    | book => exact id
  · cases h with
    | pins p hrun hp => exact fun hs => absurd (hs.symm.trans hrun) (by simp)
    | holdHalt ho =>
      obtain ⟨hpower, hpins, -⟩ := haltTaken_parts ((s.setHld false).sampleHld true) .holdInput
      exact hcongr hpower (by rw [hpins]; rfl)
    | popWord =>
      obtain ⟨events, heq⟩ := popEventWord_parts s
      rw [heq]
      exact id
    | _ => exact id

theorem requestsSettled_of_arriveHalts {s : State} (hrun : s.running = true) : s.arriveHalts.RequestsSettled := by
  have hrun' := course_running (chain_arriveHalts s).course hrun
  refine ⟨fun h => arriveHalts_requests s (.inl h), fun h => ?_, fun h => ?_⟩
  · rw [hrun'] at h
    cases h
  · exact arriveHalts_requests s (.inr ((arriveHalts_pending s).symm.trans h))

theorem amid_requestsSettled {s : State} (effect : State → State) (hrun : s.running = true)
    (he : (effect (s.withRequests [])).running = true) : (s.amid effect).RequestsSettled := by
  rw [State.amid, if_pos hrun]
  exact requestsSettled_of_arriveHalts he

theorem clockPeriod_requestsSettled {s : State} (hs : s.RequestsSettled) : s.clockPeriod.RequestsSettled := by
  unfold State.clockPeriod
  split
  next hrun =>
    obtain ⟨phase, hchain⟩ := clockPeriod_chain hrun
    refine requestsSettled_of_arriveHalts ?_
    have hclock : Course s s.arriveHalts.clock := by
      refine (chain_arriveHalts s).course.trans ?_
      unfold State.clock
      split
      · exact (Turn.course (.phase _)).trans (chain_tick _).course
      · exact Turn.course (.phase _)
    exact course_running hclock hrun
  next => exact hs

theorem keptByStep_requestsSettled : KeptByStep State.RequestsSettled := by
  intro s t hs h
  cases hp : s.pending with
  | nil =>
    rw [step_nil hp] at h
    obtain rfl := Host.Outcome.next.inj h
    exact clockPeriod_requestsSettled hs
  | cons c rest =>
    rw [step_cons hp] at h
    by_cases hreset : isResetCommand c = true
    · cases exec_reset hreset h with
      | idle power p hrun ht =>
        have hnone : s.control.requests = [] := hs.stopped hrun
        exact ⟨fun _ => hnone, fun _ => hnone, fun _ => hnone⟩
      | blocks p power powerOn => exact ⟨fun _ => rfl, fun _ => rfl, fun _ => rfl⟩
      | arrivals hrun => exact amid_requestsSettled id hrun hrun
    · obtain ⟨hrun, u, hdoes, rfl⟩ | ⟨hrun, p, readData, -, rfl⟩ := exec_runs (by simpa using hreset) h
      · have hrun' : u.running = true := course_running hdoes.course hrun
        exact requestsSettled_of_arriveHalts hrun'
      · have hnone : s.control.requests = [] := hs.stopped hrun
        exact ⟨fun _ => hnone, fun _ => hnone, fun _ => hnone⟩

theorem keptByStep_haltRecorded : KeptByStep State.HaltRecorded := by
  intro s t hs h
  have hcauses := kept_causesRecorded.step s t ⟨hs.tracking, hs.halted, hs.mask⟩ h
  have hrequests := keptByStep_requestsSettled s t ⟨hs.setup, hs.stopped, hs.settled⟩ h
  exact ⟨hcauses.1, hcauses.2, hcauses.3, hrequests.1, hrequests.2, hrequests.3⟩

/-! ### HLD -/

theorem holdRespected_of {s t : State} (hs : s.HoldRespected) (ho : t.control.op = .tracking → s.control.op = .tracking)
    (hh : t.control.hldAsserted = s.control.hldAsserted) (hp : t.pins.hld = s.pins.hld)
    (hr : t.running = true → s.running = true) : t.HoldRespected :=
  ⟨fun h => by rw [hh]; exact hs.tracking (ho h), fun h => by rw [hh, hp]; exact hs.sample (hr h)⟩

theorem running_congr {s t : State} (hp : t.power = s.power) (hpins : t.pins = s.pins) : t.running = s.running := by
  rw [State.running, State.running, hp, hpins]

theorem kept_holdRespected : Kept State.HoldRespected where
  work _ _ _ h hs := holdRespected_of hs h.frame.op.symm.trans h.frame.hldAsserted (by rw [h.frame.pins])
    fun hr => by rwa [← running_congr h.frame.power h.frame.pins]
  settles s t h hs := by
    cases h with
    | halt c ho =>
      obtain ⟨hpower, hpins, -, -, -, -, -, -, hhld⟩ := haltTaken_parts s c
      exact holdRespected_of hs (fun _ => ho) hhld (by rw [hpins]) fun hr => by rwa [← running_congr hpower hpins]
    | again c ho => exact holdRespected_of hs id rfl rfl id
    | book => exact holdRespected_of hs id rfl rfl id
  turn s t h hs := by
    cases h with
    | pins p hrun hp =>
      refine ⟨hs.tracking, fun hr => ?_⟩
      have hr' : s.running = true := by rwa [State.running, ← hp]
      rw [hrun] at hr'
      cases hr'
    | hld level hlevel =>
      refine ⟨fun ho => ?_, fun _ => rfl⟩
      cases level with
      | false => exact absurd (hs.tracking ho) (by rw [hlevel rfl ho]; simp)
      | true => rfl
    | holdHalt ho =>
      obtain ⟨-, hpins, -, -, -, -, -, -, hhld⟩ := haltTaken_parts ((s.setHld false).sampleHld true) .holdInput
      refine ⟨fun h => (nomatch h), fun _ => ?_⟩
      rw [hhld, hpins]
      rfl
    | popWord =>
      obtain ⟨events, heq⟩ := popEventWord_parts s
      rw [heq]
      exact holdRespected_of hs id rfl rfl id
    | start hrun ho hhld hchecks => exact ⟨fun _ => hhld, hs.sample⟩
    | stop => exact ⟨fun h => (nomatch h), hs.sample⟩
    | resume ho hhld hreached => exact ⟨fun _ => hhld, hs.sample⟩
    | _ => exact holdRespected_of hs id rfl rfl id
  idle s power p hr hr' hs := ⟨hs.tracking, fun h => absurd (h.symm.trans hr') (by simp)⟩
  blocks _ _ _ _ := ⟨fun h => (nomatch h), fun _ => rfl⟩

/-! ### The output lines -/

theorem takeFaultActions_output (s : State) (o : OutputId) :
    s.takeFaultActions.outputs[o] = { s.outputs[o] with
      held := match s.outputs[o].fault with
              | .off => none
              | .hold => some (s.lineActive o) } := by
  have hfold := foldl_upd_get (fun (o : OutputId) (line : OutputLine) => { line with
      held := match line.fault with
              | .off => none
              | .hold => some (s.lineActive o) }) (by decide : stationIds.Nodup) s.outputs o
  rwa [if_pos (stationIds_mem o)] at hfold

theorem haltTaken_outputsSound {s : State} (c : Cause) (hforced : ∀ o : OutputId, s.outputs[o].forced = .none) :
    (s.haltTaken c).OutputsSound := by
  refine ⟨fun o => ?_, fun _ o => ?_⟩
  · change s.takeFaultActions.outputs[o].held ≠ none ↔ OpState.halted = .halted ∧ s.takeFaultActions.outputs[o].fault = .hold
    rw [takeFaultActions_output]
    cases h : s.outputs[o].fault <;> simp
  · change s.takeFaultActions.outputs[o].forced = .none
    rw [takeFaultActions_output]
    exact hforced o

theorem outputsSound_of {s t : State} (hs : s.OutputsSound) (ho : t.control.op = s.control.op)
    (hout : t.outputs = s.outputs) : t.OutputsSound := ⟨by rw [ho, hout]; exact hs.held, by rw [ho, hout]; exact hs.forced⟩

/-- Outside HALTED, with no held level and no forced state, the lines are sound. -/
theorem outputsSound_of_none {s : State} (ho : s.control.op ≠ .halted) (hheld : ∀ o : OutputId, s.outputs[o].held = none)
    (hforced : s.control.op ≠ .setup → ∀ o : OutputId, s.outputs[o].forced = .none) : s.OutputsSound :=
  ⟨fun o => ⟨fun h => absurd (hheld o) h, fun h => absurd h.1 ho⟩, hforced⟩

theorem State.OutputsSound.unheld {s : State} (hs : s.OutputsSound) (ho : s.control.op ≠ .halted) (o : OutputId) :
    s.outputs[o].held = none := by
  by_contra h
  exact ho ((hs.held o).1 h).1

theorem Turn.outputsSound {s t : State} (h : Turn s t) (hs : s.OutputsSound) : t.OutputsSound := by
  cases h with
  | holdHalt ho =>
    exact haltTaken_outputsSound (s := (s.setHld false).sampleHld true) .holdInput (hs.forced (ho.trans_ne (by simp)))
  | popWord =>
    obtain ⟨events, heq⟩ := popEventWord_parts s
    rw [heq]
    exact outputsSound_of hs rfl rfl
  | output o f ho hf =>
    have hne : s.control.op ≠ .halted := ho.trans_ne (by simp)
    refine outputsSound_of_none hne (fun p => ?_) fun h => absurd ho h
    exact (upd_get_proj o p OutputLine.held (hf _)).trans (hs.unheld hne p)
  | start hrun ho hhld hchecks =>
    refine outputsSound_of_none (by simp [State.beginTracking]) (fun o => ?_) fun _ o => ?_
    · change (mapAll _ s.outputs)[o].held = none
      rw [mapAll_get]
      exact hs.unheld (ho.trans_ne (by simp)) o
    · change (mapAll _ s.outputs)[o].forced = .none
      rw [mapAll_get]
  | stop =>
    refine outputsSound_of_none (by simp [State.returnToSetup]) (fun o => ?_) fun h => absurd rfl h
    change (mapAll _ s.outputs)[o].held = none
    rw [mapAll_get]
  | resume ho hhld hreached =>
    refine outputsSound_of_none (by simp [State.resumed]) (fun o => ?_) fun _ o => ?_
    · change (mapAll _ s.outputs)[o].held = none
      rw [mapAll_get]
    · change (mapAll _ s.outputs)[o].forced = .none
      rw [mapAll_get]
      exact hs.forced (ho.trans_ne (by simp)) o
  | _ => exact outputsSound_of hs rfl rfl

theorem kept_outputsSound : Kept State.OutputsSound where
  work _ _ _ h hs := outputsSound_of hs h.frame.op h.frame.outputs
  settles s t h hs := by
    cases h with
    | halt c ho => exact haltTaken_outputsSound c (hs.forced (ho.trans_ne (by simp)))
    | again c ho => exact outputsSound_of hs rfl rfl
    | book => exact outputsSound_of hs rfl rfl
  turn _ _ h hs := h.outputsSound hs
  idle _ _ _ _ _ hs := outputsSound_of hs rfl rfl
  blocks _ _ _ _ := outputsSound_of_none (fun h => nomatch h) (fun o => by simp [State.resetBlocks, OutputLine.reset])
    fun h => absurd rfl h

/-! ### The detectors -/

theorem detectorsSound_of {s t : State} (hs : s.DetectorsSound) (ho : t.control.op = .setup → s.control.op = .setup)
    (hl : ∀ l : LaneId, t.lanes[l].detector ≠ .off →
      s.lanes[l].detector ≠ .off ∧ t.lanes[l].config.enabled = s.lanes[l].config.enabled) : t.DetectorsSound := by
  intro l hon
  obtain ⟨hon', hconfig⟩ := hl l hon
  obtain ⟨henabled, hop⟩ := hs l hon'
  exact ⟨hconfig.trans henabled, fun h => hop (ho h)⟩

theorem placeHolder_lanes {s t : State} {n : StationId} {fire : Pos} {i : Item} (h : s.placeHolder n fire i = some t) :
    t.lanes = s.lanes := by
  obtain ⟨pos, r, rfl, -⟩ | rfl := placeHolder_cases h <;> rfl

theorem Work.detectorsSound {w : Worker} {s t : State} (h : Work w s t) (hs : s.DetectorsSound) : t.DetectorsSound := by
  refine detectorsSound_of hs h.frame.op.symm.trans fun l hon => ⟨?_, by rw [h.frame.laneConfig]⟩
  cases h with
  | note h =>
    cases h with
    | event r =>
      rw [arrive_eq] at hon
      exact hon
    | lane m f hf => rwa [State.updLane, upd_get_proj m l Lane.detector (hf _).2] at hon
    | detector m d hon' hd =>
      rw [State.setDetector, State.updLane, upd_get] at hon
      split at hon
      next h =>
        subst h
        exact hon'
      next => exact hon
    | item tag f hf => exact hon
  | enrol m pos tag =>
    rw [enroll_eq] at hon
    exact hon
  | activate e rest n i placed ho ht hk hp =>
    have hlanes := placeHolder_lanes hp
    rw [hlanes] at hon
    exact hon
  | activateWatch e rest n i placed ho ht hk hp =>
    have hlanes := placeHolder_lanes hp
    rw [State.appendWatch, updStation_lanes, hlanes] at hon
    exact hon
  | fail n hr => rwa [(failing_parts s n).2.2.2.1] at hon
  | _ => exact hon

theorem Turn.detectorsSound {s t : State} (h : Turn s t) (hs : s.DetectorsSound) : t.DetectorsSound := by
  have hsame {t : State} (ho : t.control.op = .setup → s.control.op = .setup) (hl : t.lanes = s.lanes) :
      t.DetectorsSound := detectorsSound_of hs ho fun l hon => by rw [hl] at hon ⊢; exact ⟨hon, rfl⟩
  have hoff (ho : s.control.op = .setup) (l : LaneId) : s.lanes[l].detector = .off := by
    by_contra h
    exact (hs l h).2 ho
  cases h with
  | holdHalt ho =>
    exact hsame (fun h => nomatch h) (haltTaken_parts ((s.setHld false).sampleHld true) .holdInput).2.2.2.1
  | popWord =>
    obtain ⟨events, heq⟩ := popEventWord_parts s
    rw [heq]
    exact hsame id rfl
  | laneConfig m c ho hc =>
    intro l hon
    rw [State.updLane, upd_get_proj m l Lane.detector rfl] at hon
    exact absurd (hoff ho l) hon
  | start hrun ho hhld hchecks =>
    intro l hon
    rw [beginTracking_lane] at hon ⊢
    unfold Lane.started at hon ⊢
    dsimp only at hon ⊢
    split at hon
    next henabled => exact ⟨henabled, by simp [State.beginTracking]⟩
    next => exact absurd rfl hon
  | stop =>
    intro l hon
    refine absurd ?_ hon
    change (mapAll _ s.lanes)[l].detector = .off
    rw [mapAll_get]
    rfl
  | clear ho =>
    intro l hon
    refine absurd ?_ hon
    change (mapAll _ s.lanes)[l].detector = .off
    rw [mapAll_get]
    exact hoff ho l
  | resume ho => exact hsame (fun h => nomatch h) rfl
  | _ => exact hsame id rfl

theorem kept_detectorsSound : Kept State.DetectorsSound where
  work _ _ _ h hs := h.detectorsSound hs
  settles s t h hs := by
    cases h with
    | halt c ho =>
      have hlanes := (haltTaken_parts s c).2.2.2.1
      exact detectorsSound_of hs (fun h => nomatch h) fun l hon => by rw [hlanes] at hon ⊢; exact ⟨hon, rfl⟩
    | again c ho => exact detectorsSound_of hs id fun l hon => ⟨hon, rfl⟩
    | book => exact detectorsSound_of hs id fun l hon => ⟨hon, rfl⟩
  turn _ _ h hs := h.detectorsSound hs
  idle _ _ _ _ _ hs := detectorsSound_of hs id fun l hon => ⟨hon, rfl⟩
  blocks s p _ powerOn := fun l hon => absurd ((resetBlocks_empty { s with pins := p } powerOn).detectors l) hon

/-- Settles O54: the cause fields, HLD, the lines and the detectors are each kept by every piece of a step; and requests
arrive at the end of every command and of every period. -/
theorem controlAndOutputsAreKept : Obligations.ControlAndOutputsAreKept :=
  ⟨⟨keptByStep_haltRecorded, kept_holdRespected.step⟩, kept_outputsSound.step, kept_detectorsSound.step⟩

end Sys2Proof.Machine
end

section
/-! PROOFS. The live items' tags and their RETIRE entries (O55), and the configurations and references (O56). -/

namespace Sys2Proof.Machine

/-! ### Tags -/

theorem succTag_ne_zero {t : Tag} (h : t ≠ 0) : succTag t ≠ 0 := by
  unfold succTag
  split
  · decide
  next hne =>
    intro hzero
    have hnat : t.toNat ≠ 65535 := fun h => hne (BitVec.eq_of_toNat_eq h)
    have hpos : t.toNat ≠ 0 := fun h0 => h (BitVec.eq_of_toNat_eq h0)
    have := congrArg BitVec.toNat hzero
    rw [BitVec.toNat_add] at this
    simp at this
    omega

/-- The sequence 1, 2, … 65535, 1 as numbers (R37). -/
theorem succTag_toNat {t : Tag} (h : t ≠ 0) : (succTag t).toNat = t.toNat % 65535 + 1 := by
  have hpos : t.toNat ≠ 0 := fun h0 => h (BitVec.eq_of_toNat_eq h0)
  have hlt := t.isLt
  unfold succTag
  split
  next heq =>
    subst heq
    rfl
  next hne =>
    have hnat : t.toNat ≠ 65535 := fun h => hne (BitVec.eq_of_toNat_eq h)
    rw [BitVec.toNat_add]
    change (t.toNat + 1) % 65536 = _
    omega

theorem succTag_iterate_ne_zero {t : Tag} (h : t ≠ 0) (k : Nat) : succTag^[k] t ≠ 0 := by
  induction k generalizing t with
  | zero => exact h
  | succ k ih => exact ih (succTag_ne_zero h)

theorem succTag_iterate_toNat {t : Tag} (h : t ≠ 0) (k : Nat) :
    (succTag^[k] t).toNat = (t.toNat - 1 + k) % 65535 + 1 := by
  have hpos : t.toNat ≠ 0 := fun h0 => h (BitVec.eq_of_toNat_eq h0)
  have hlt := t.isLt
  induction k with
  | zero =>
    change t.toNat = _
    omega
  | succ k ih =>
    rw [Function.iterate_succ_apply', succTag_toNat (succTag_iterate_ne_zero h k), ih]
    omega

theorem succTag_iterate_injective {t : Tag} (h : t ≠ 0) {j k : Nat} (hj : j < 65535) (hk : k < 65535)
    (heq : succTag^[j] t = succTag^[k] t) : j = k := by
  have hnat := congrArg BitVec.toNat heq
  rw [succTag_iterate_toNat h, succTag_iterate_toNat h] at hnat
  omega

/-- The search for a tag: the first of the sequence that is not held, as far as the search goes (R37). -/
theorem freshTag_eq (held : Tag → Bool) (fuel : Nat) (t : Tag) :
    ∃ k ≤ fuel, freshTag held fuel t = succTag^[k] t ∧ (∀ j < k, held (succTag^[j] t) = true)
      ∧ (k < fuel → held (succTag^[k] t) = false) := by
  induction fuel generalizing t with
  | zero => exact ⟨0, le_refl _, rfl, fun _ h => absurd h (Nat.not_lt_zero _), fun h => absurd h (Nat.lt_irrefl _)⟩
  | succ fuel ih =>
    simp only [freshTag]
    split
    next hheld =>
      obtain ⟨k, hk, heq, hbefore, hfree⟩ := ih (succTag t)
      refine ⟨k + 1, Nat.succ_le_succ hk, heq, fun j hj => ?_, fun h => hfree (Nat.lt_of_succ_lt_succ h)⟩
      cases j with
      | zero => exact hheld
      | succ j => exact hbefore j (Nat.lt_of_succ_lt_succ hj)
    next hheld =>
      exact ⟨0, Nat.zero_le _, rfl, fun _ h => absurd h (Nat.not_lt_zero _), fun _ => by simpa using hheld⟩

theorem holdsTag_iff {s : State} {tag : Tag} : s.holdsTag tag = true ↔ tag ∈ s.queue.items.map Item.tag := by
  simp [State.holdsTag, List.any_eq_true]

/-- With a free record, one of the first tags of the sequence is free: so many are held at most (R37). -/
theorem giveTag_spec {s : State} (hroom : s.queue.items.length < 64) (hnext : s.queue.nextTag ≠ 0) :
    ∃ k, s.giveTag = succTag^[k] s.queue.nextTag ∧ (∀ j < k, s.holdsTag (succTag^[j] s.queue.nextTag) = true)
      ∧ s.holdsTag s.giveTag = false := by
  obtain ⟨k, hk, heq, hbefore, hfree⟩ := freshTag_eq s.holdsTag s.queue.items.length s.queue.nextTag
  refine ⟨k, heq, hbefore, ?_⟩
  have hgive : s.giveTag = succTag^[k] s.queue.nextTag := heq
  rw [hgive]
  by_cases hlt : k < s.queue.items.length
  · exact hfree hlt
  · by_contra hheld
    have hall : ∀ j < k + 1, succTag^[j] s.queue.nextTag ∈ s.queue.items.map Item.tag := by
      intro j hj
      by_cases hjk : j = k
      · subst hjk
        exact holdsTag_iff.1 (by simpa using hheld)
      · exact holdsTag_iff.1 (hbefore j (by omega))
    have hnodup : ((List.range (k + 1)).map fun j => succTag^[j] s.queue.nextTag).Nodup := by
      refine List.Nodup.map_on (fun i hi j hj hij => ?_) List.nodup_range
      rw [List.mem_range] at hi hj
      exact succTag_iterate_injective hnext (by omega) (by omega) hij
    have hsubset : ((List.range (k + 1)).map fun j => succTag^[j] s.queue.nextTag) ⊆ s.queue.items.map Item.tag := by
      intro x hx
      obtain ⟨j, hj, rfl⟩ := List.mem_map.1 hx
      exact hall j (List.mem_range.1 hj)
    have hlength := (hnodup.subperm hsubset).length_le
    simp only [List.length_map, List.length_range] at hlength
    omega

theorem giveTag_ne_zero {s : State} (hroom : s.queue.items.length < 64) (hnext : s.queue.nextTag ≠ 0) :
    s.giveTag ≠ 0 := by
  obtain ⟨k, heq, -⟩ := giveTag_spec hroom hnext
  rw [heq]
  exact succTag_iterate_ne_zero hnext k

theorem tagsSound_of {s t : State} (hs : s.TagsSound)
    (hi : (t.queue.items.map Item.tag).Sublist (s.queue.items.map Item.tag)) (hn : t.queue.nextTag ≠ 0) : t.TagsSound := by
  refine ⟨?_, hs.distinct.sublist hi, fun i hmem hzero => ?_, hn⟩
  · have hle := hi.length_le
    simp only [List.length_map] at hle
    exact hle.trans hs.room
  · obtain ⟨j, hj, heq⟩ := List.mem_map.1 (hi.subset (List.mem_map_of_mem hmem))
    exact hs.live j hj (heq.trans hzero)

theorem tagsSound_enroll {s : State} {l : LaneId} {pos : Pos} {tag : Tag} (hs : s.TagsSound)
    (hq : s.judgeAdmission l = .admitted tag) : (s.enroll l pos tag).TagsSound := by
  obtain ⟨hroom, -, rfl⟩ := judgeAdmission_admitted hq
  have hzero := giveTag_ne_zero hroom hs.next
  obtain ⟨-, -, -, hfree⟩ := giveTag_spec hroom hs.next
  rw [enroll_eq]
  refine ⟨?_, ?_, fun i hi => ?_, succTag_ne_zero hzero⟩
  · simp only [List.length_append, List.length_singleton]
    omega
  · rw [List.map_append, List.nodup_append]
    refine ⟨hs.distinct, List.nodup_singleton _, fun a ha b hb => ?_⟩
    obtain rfl : b = s.giveTag := by simpa [newItem] using hb
    rintro rfl
    rw [holdsTag_iff.2 ha] at hfree
    cases hfree
  · obtain hold | hnew := List.mem_append.1 hi
    · exact hs.live i hold
    · obtain rfl := List.mem_singleton.1 hnew
      exact hzero

theorem freeItem_tags (s : State) (tag : Tag) :
    (s.freeItem tag).queue.items.map Item.tag = (s.queue.items.map Item.tag).filter (· != tag) := by
  rw [List.filter_map]
  rfl

theorem Note.nextTag {s t : State} (h : Note s t) : t.queue.nextTag = s.queue.nextTag := by
  cases h with
  | event r => rw [arrive_eq]
  | lane l f hf => rfl
  | detector l d hon hd => rfl
  | item tag f hf => rfl

theorem Work.tagsSound {w : Worker} {s t : State} (h : Work w s t) (hs : s.TagsSound) : t.TagsSound := by
  have hsame {t : State} (hq : t.queue = s.queue) : t.TagsSound :=
    tagsSound_of hs (by rw [hq]) (by rw [hq]; exact hs.next)
  have hfree {t : State} (hq : t.queue = s.queue) (tag : Tag) : (t.freeItem tag).TagsSound := by
    refine tagsSound_of hs ?_ ?_
    · rw [freeItem_tags, hq]
      exact List.filter_sublist
    · change t.queue.nextTag ≠ 0
      rw [hq]
      exact hs.next
  cases h with
  | note h => exact tagsSound_of hs (by rw [h.items_tags]) (by rw [h.nextTag]; exact hs.next)
  | enrol l pos tag hw hb hpos hq => exact tagsSound_enroll hs hq
  | activate e rest n i placed ho ht hk hp => exact hsame (placeHolder_queue hp :)
  | activateWatch e rest n i placed ho ht hk hp =>
    exact hsame (t := placed.appendWatch n i.tag i.lane) (placeHolder_queue hp :)
  | retire p e rest => exact hfree (t := s.left rest) rfl e.tag
  | cancel tag => exact hfree (t := s.updEntries _) rfl tag
  | fail n hr => exact hsame (failing_parts s n).2.2.1
  | _ => exact hsame rfl

theorem Turn.tagsSound {s t : State} (h : Turn s t) (hs : s.TagsSound) : t.TagsSound := by
  have hsame {t : State} (hq : t.queue = s.queue) : t.TagsSound :=
    tagsSound_of hs (by rw [hq]) (by rw [hq]; exact hs.next)
  cases h with
  | holdHalt ho => exact hsame (haltTaken_parts ((s.setHld false).sampleHld true) .holdInput).2.2.2.2.1
  | popWord =>
    obtain ⟨events, heq⟩ := popEventWord_parts s
    rw [heq]
    exact hsame rfl
  | stop => exact tagsSound_of hs (List.nil_sublist _) hs.next
  | clear ho => exact tagsSound_of hs (List.Sublist.refl _) (by simp [State.clearRun])
  | _ => exact hsame rfl

theorem Settles.queue_list {s t : State} (h : Settles s t) : t.queue = s.queue ∧ t.list.entries = s.list.entries := by
  cases h with
  | halt c ho =>
    obtain ⟨-, -, -, -, hqueue, hlist, -⟩ := haltTaken_parts s c
    exact ⟨hqueue, hlist⟩
  | again c ho => exact ⟨rfl, rfl⟩
  | book => exact ⟨rfl, rfl⟩

theorem kept_tagsSound : Kept State.TagsSound where
  work _ _ _ h hs := h.tagsSound hs
  settles _ _ h hs := tagsSound_of hs (by rw [h.queue_list.1]) (by rw [h.queue_list.1]; exact hs.next)
  turn _ _ h hs := h.tagsSound hs
  idle _ _ _ _ _ hs := ⟨hs.1, hs.2, hs.3, hs.4⟩
  blocks _ _ _ _ := ⟨Nat.zero_le _, List.nodup_nil, fun _ h => (nomatch h), by simp [State.resetBlocks, TrackingQueue.reset]⟩

/-! ### One RETIRE entry for each live item -/

/-- The tags of the RETIRE entries. -/
def retireTags (es : List Entry) : List Tag := (es.filter Entry.isRetire).map Entry.tag

theorem retireTags_perm {xs ys : List Entry} (h : xs.Perm ys) : (retireTags xs).Perm (retireTags ys) :=
  (h.filter _).map _

theorem retireTags_append (xs ys : List Entry) : retireTags (xs ++ ys) = retireTags xs ++ retireTags ys := by
  rw [retireTags, List.filter_append, List.map_append]
  rfl

theorem retireTags_cons_retire {e : Entry} (h : e.isRetire = true) (es : List Entry) :
    retireTags (e :: es) = e.tag :: retireTags es := by
  simp only [retireTags, List.filter_cons, h, if_true, List.map_cons]

theorem retireTags_cons_other {e : Entry} (h : e.isRetire = false) (es : List Entry) :
    retireTags (e :: es) = retireTags es := by
  simp only [retireTags, List.filter_cons, h, Bool.false_eq_true, if_false]

/-- RETIRE entries stay when those that leave are of another kind. -/
theorem retireTags_filter {p : Entry → Bool} (hp : ∀ e, e.isRetire = true → p e = true) (es : List Entry) :
    retireTags (es.filter p) = retireTags es := by
  rw [retireTags, List.filter_filter, retireTags]
  congr 1
  refine List.filter_congr fun e _ => ?_
  cases h : e.isRetire with
  | false => rfl
  | true => rw [hp e h]; rfl

theorem retireTags_map {f : Entry → Entry} (hf : ∀ e, (f e).isRetire = e.isRetire ∧ (f e).tag = e.tag) (es : List Entry) :
    retireTags (es.map f) = retireTags es := by
  induction es with
  | nil => rfl
  | cons e rest ih =>
    rw [List.map_cons]
    cases h : e.isRetire with
    | false => rw [retireTags_cons_other ((hf e).1.trans h), retireTags_cons_other h, ih]
    | true => rw [retireTags_cons_retire ((hf e).1.trans h), retireTags_cons_retire h, ih, (hf e).2]

theorem not_retire_of_isOff {e : Entry} (h : e.isOff = true) : e.isRetire = false := by
  cases e with | mk k => cases k <;> simp_all [Entry.isOff, Entry.isRetire]

theorem not_retire_of_rekeysFor {e : Entry} {tag : Tag} (h : e.rekeysFor tag = true) : e.isRetire = false := by
  obtain ⟨n, hk, -⟩ := rekeysFor_iff.1 h
  simp [Entry.isRetire, hk]

/-- Re-keying moves OFF entries alone. -/
theorem retireTags_rekeyed (s : State) (tag : Tag) (t : Pos) (es : List Entry) :
    retireTags (es.filterMap (s.rekeyMoved tag t)) = []
      ∧ retireTags (es.filterMap (s.rekeyKept tag t)) = retireTags es := by
  have hmark {e : Entry} (c : Pos) : Entry.isRetire { e.unmark with fire := c } = e.isRetire := unmark_isRetire e
  induction es with
  | nil => exact ⟨rfl, rfl⟩
  | cons e rest ih =>
    obtain ⟨ihmoved, ihkept⟩ := ih
    simp only [List.filterMap_cons]
    obtain ⟨hkept, hmoved⟩ | ⟨hfor, hkept, hmoved⟩ | ⟨hfor, hkept, hmoved⟩ | ⟨hfor, hkept, c, hmoved, -⟩ :=
      rekey_cases s tag t e
    all_goals rw [hkept, hmoved]
    · refine ⟨ihmoved, ?_⟩
      cases h : e.isRetire with
      | false => simp only [retireTags_cons_other h, ihkept]
      | true => simp only [retireTags_cons_retire h, ihkept]
    all_goals have hno := not_retire_of_rekeysFor hfor
    · refine ⟨ihmoved, ?_⟩
      simp only [retireTags_cons_other hno, retireTags_cons_other ((unmark_isRetire e).trans hno), ihkept]
    · refine ⟨ihmoved, ?_⟩
      simp only [retireTags_cons_other hno, ihkept]
    · simp only [retireTags_cons_other ((hmark c).trans hno), retireTags_cons_other hno, ihmoved, ihkept]
      exact ⟨trivial, trivial⟩

theorem retireTags_rekey (s : State) (tag : Tag) (t : Pos) :
    (retireTags (s.rekey tag t).list.entries).Perm (retireTags s.list.entries) := by
  obtain ⟨hmoved, hkept⟩ := retireTags_rekeyed s tag t s.list.entries
  refine (retireTags_perm (rekey_perm s tag t)).trans ?_
  rw [retireTags_append, hmoved, hkept, List.nil_append]

theorem retireTags_freeItem (s : State) (tag : Tag) :
    retireTags (s.freeItem tag).list.entries = retireTags s.list.entries := by
  rw [freeItem_entries]
  refine retireTags_map (fun e => ?_) _
  split
  · exact ⟨unmark_isRetire e, unmark_tag e⟩
  · exact ⟨rfl, rfl⟩

/-- An item's plan has one RETIRE entry (R69). -/
theorem retireTags_plan (s : State) (l : LaneId) (leading : Pos) (tag : Tag) :
    retireTags (s.plan l leading tag) = [tag] := by
  have hon (ns : List StationId) : retireTags
      (ns.map fun n => Entry.make (.on n) (leading + wide s.stations[n].config.offset) tag) = [] := by
    induction ns with
    | nil => rfl
    | cons n rest ih => exact (retireTags_cons_other rfl _).trans ih
  rw [State.plan, retireTags_append, retireTags_append, hon]
  split <;> rfl

theorem retireTags_takes {s : State} {p : Entry → Bool} {e : Entry} {rest : List Entry} (ht : s.Takes p e rest) :
    (retireTags s.list.entries).Perm (retireTags (e :: rest)) := retireTags_perm (takeFirst_perm ht)

theorem retireTags_placeHolder {s t : State} {n : StationId} {fire : Pos} {i : Item}
    (h : s.placeHolder n fire i = some t) : (retireTags t.list.entries).Perm (retireTags s.list.entries) := by
  obtain ⟨pos, r, rfl, -⟩ | rfl := placeHolder_cases h
  · refine (retireTags_perm (insertEntry_perm ..)).trans ?_
    rw [retireTags_cons_other (not_retire_of_isOff rfl)]
  · exact .refl _

theorem findItem_eq_none {s : State} {tag : Tag} : s.findItem tag = none ↔ tag ∉ s.queue.items.map Item.tag := by
  simp [State.findItem, List.find?_eq_none]

/-- The tags of a list without repetition, one of them taken out. -/
theorem perm_filter_ne {tags rest : List Tag} {tag : Tag} (hnodup : tags.Nodup) (h : (tag :: rest).Perm tags) :
    rest.Perm (tags.filter (· != tag)) := by
  have hnot : tag ∉ rest := (List.nodup_cons.1 (h.nodup_iff.2 hnodup)).1
  refine List.Perm.trans ?_ (h.filter (· != tag))
  rw [List.filter_cons_of_neg (by simp), List.filter_eq_self.2]
  intro x hx
  exact bne_iff_ne.2 fun heq => hnot (heq ▸ hx)

theorem Work.retirePerm {w : Worker} {s t : State} (h : Work w s t) (htags : s.TagsSound)
    (hs : (retireTags s.list.entries).Perm (s.queue.items.map Item.tag)) :
    (retireTags t.list.entries).Perm (t.queue.items.map Item.tag) := by
  have hactivate {e : Entry} {rest : List Entry} {n : StationId} {i : Item} {placed : State} (ht : s.Takes s.due e rest)
      (hk : e.kind = .on n) (hp : (s.left rest).placeHolder n e.fire i = some placed) :
      (retireTags placed.list.entries).Perm (placed.queue.items.map Item.tag) := by
    rw [placeHolder_queue hp]
    refine (retireTags_placeHolder hp).trans (List.Perm.trans ?_ hs)
    have htaken := retireTags_takes ht
    rw [retireTags_cons_other (by simp [Entry.isRetire, hk])] at htaken
    exact htaken.symm
  have hwithdraw (n : StationId) (r : Runtime) :
      (retireTags (s.withdraw n r).list.entries).Perm (s.queue.items.map Item.tag) := by
    refine (List.Perm.of_eq (retireTags_filter (fun e he => ?_) s.list.entries)).trans hs
    simp [Entry.isOnOf, isRetire_iff.1 he]
  cases h with
  | note h => rwa [h.parts.1, h.items_tags]
  | enrol l pos tag =>
    refine (retireTags_perm (enroll_perm s l pos tag)).trans ?_
    rw [retireTags_append, retireTags_plan, enroll_eq, List.map_append]
    exact (List.Perm.cons tag hs).trans (List.perm_append_singleton tag _).symm
  | request c => exact hs
  | drop p e rest ht hn =>
    refine List.Perm.trans ?_ hs
    have htaken := retireTags_takes ht
    cases hr : e.isRetire with
    | false =>
      rw [retireTags_cons_other hr] at htaken
      exact htaken.symm
    | true =>
      rw [retireTags_cons_retire hr] at htaken
      exact absurd (hs.subset (htaken.symm.subset List.mem_cons_self)) (findItem_eq_none.1 (hn hr))
  | activate e rest n i placed ho ht hk hp => exact hactivate ht hk hp
  | activateWatch e rest n i placed ho ht hk hp => exact (hactivate ht hk hp :)
  | retire p e rest ht hp hk =>
    rw [retireTags_freeItem, freeItem_tags]
    have htaken := retireTags_takes ht
    rw [retireTags_cons_retire hk] at htaken
    exact perm_filter_ne htags.distinct (htaken.symm.trans hs)
  | cancel tag =>
    rw [retireTags_freeItem, freeItem_tags]
    refine List.Perm.trans (List.Perm.of_eq ?_) (hs.filter (· != tag))
    change ((s.list.entries.filter _).filter _).map _ = ((s.list.entries.filter _).map _).filter _
    rw [List.filter_map, List.filter_filter, List.filter_filter]
    congr 1
    refine List.filter_congr fun e _ => ?_
    cases hr : e.isRetire with
    | false => simp
    | true => simp [Entry.plannedFor, Entry.isOff, isRetire_iff.1 hr, bne]
  | rekey tag t => exact (retireTags_rekey s tag t).trans hs
  | stations v hv => exact hs
  | withdraw n hr => exact hwithdraw n .disabled
  | fail n hr =>
    obtain ⟨hlist, -, hqueue, -⟩ := failing_parts s n
    rw [hlist, hqueue]
    exact hwithdraw n .failed
  | overtake n new => exact hs
  | mark ho =>
    refine (List.Perm.of_eq (retireTags_map (fun e => ?_) s.list.entries)).trans hs
    split <;> exact ⟨rfl, rfl⟩

theorem kept_listMatchesQueue : Kept State.ListMatchesQueue where
  work _ _ _ h hs := ⟨h.tagsSound hs.tags, h.retirePerm hs.tags hs.retire⟩
  settles s t h hs := by
    refine ⟨kept_tagsSound.settles s t h hs.tags, ?_⟩
    rw [h.queue_list.1, h.queue_list.2]
    exact hs.retire
  turn s t h hs := by
    refine ⟨h.tagsSound hs.tags, ?_⟩
    cases h with
    | holdHalt ho =>
      obtain ⟨-, -, -, -, hqueue, hlist, -⟩ := haltTaken_parts ((s.setHld false).sampleHld true) .holdInput
      rw [hqueue, hlist]
      exact hs.retire
    | popWord =>
      obtain ⟨events, heq⟩ := popEventWord_parts s
      rw [heq]
      exact hs.retire
    | stop => exact .refl _
    | _ => exact hs.retire
  idle _ _ _ _ _ hs := ⟨⟨hs.tags.1, hs.tags.2, hs.tags.3, hs.tags.4⟩, hs.retire⟩
  blocks s p power powerOn := ⟨kept_tagsSound.blocks s p power powerOn, .refl _⟩

/-- Settles O55: a tag is given only when no live item holds it, a RETIRE entry is placed with its item alone, and it
leaves with the item alone. -/
theorem everyItemIsRetiredOnce : Obligations.EveryItemIsRetiredOnce := ⟨kept_tagsSound.step, kept_listMatchesQueue.step⟩

/-! ### Configurations -/

theorem configSound_of {s t : State} (hs : s.ConfigSound)
    (hl : ∀ l : LaneId, t.lanes[l].config = s.lanes[l].config)
    (hst : ∀ n : StationId, t.stations[n].config = s.stations[n].config)
    (hg : t.globals.tickDiv = s.globals.tickDiv) : t.ConfigSound :=
  ⟨fun l => by rw [hl]; exact hs.lanes l, fun n => by rw [hst]; exact hs.stations n, by rw [hg]; exact hs.tickDiv⟩

theorem Turn.configSound {s t : State} (h : Turn s t) (hs : s.ConfigSound) : t.ConfigSound := by
  have hsame {t : State} (hl : t.lanes = s.lanes) (hst : t.stations = s.stations) (hg : t.globals = s.globals) :
      t.ConfigSound := configSound_of hs (fun l => by rw [hl]) (fun n => by rw [hst]) (by rw [hg])
  cases h with
  | phase phase => exact configSound_of hs (fun _ => rfl) (fun _ => rfl) rfl
  | holdHalt ho =>
    obtain ⟨-, -, -, hlanes, -, -, -, hglobals, -⟩ := haltTaken_parts ((s.setHld false).sampleHld true) .holdInput
    refine configSound_of hs (fun l => by rw [hlanes]; rfl) (fun n => ?_) (by rw [hglobals]; rfl)
    change (mapAll _ s.stations)[n].config = _
    rw [mapAll_get]
  | popWord =>
    obtain ⟨events, heq⟩ := popEventWord_parts s
    rw [heq]
    exact hsame rfl rfl rfl
  | globals g ho hg => exact ⟨hs.lanes, hs.stations, hg⟩
  | laneConfig l c ho hc =>
    exact ⟨upd_forall (P := fun _ (x : Lane) => x.config.Sound) l hs.lanes fun _ => hc, hs.stations, hs.tickDiv⟩
  | stationConfig n c ho hc =>
    exact ⟨hs.lanes, upd_forall (P := fun _ (x : Station) => x.config.Sound) n hs.stations hc, hs.tickDiv⟩
  | start =>
    refine configSound_of hs (fun l => by rw [beginTracking_lane]; rfl) (fun n => by rw [beginTracking_station]; rfl) rfl
  | stop =>
    refine configSound_of hs (fun l => ?_) (fun n => ?_) rfl
    · change (mapAll _ s.lanes)[l].config = _
      rw [mapAll_get]
      rfl
    · change (mapAll _ s.stations)[n].config = _
      rw [mapAll_get]
      rfl
  | clear ho =>
    refine configSound_of hs (fun l => ?_) (fun n => ?_) rfl
    · change (mapAll _ s.lanes)[l].config = _
      rw [mapAll_get]
    · change (mapAll _ s.stations)[n].config = _
      rw [mapAll_get]
  | clearFailed n ho hr => exact configSound_of hs (fun _ => rfl) (fun m => upd_get_proj n m Station.config rfl) rfl
  | switchOn n ho hchecks => exact configSound_of hs (fun _ => rfl) (fun m => upd_get_proj n m Station.config rfl) rfl
  | _ => exact hsame rfl rfl rfl

theorem haltTaken_config (s : State) (c : Cause) (n : StationId) :
    (s.haltTaken c).stations[n].config = s.stations[n].config := by
  change (mapAll _ s.stations)[n].config = _
  rw [mapAll_get]

theorem laneConfig_reset_sound : LaneConfig.Sound .reset := ⟨by decide, by decide, by decide⟩

theorem stationConfig_reset_sound : StationConfig.Sound .reset := ⟨by decide, by decide, by decide, by decide⟩

theorem kept_configSound : Kept State.ConfigSound where
  work _ _ _ h hs := configSound_of hs h.frame.laneConfig h.frame.stationConfig (by rw [h.frame.globals])
  settles s t h hs := by
    cases h with
    | halt c ho =>
      obtain ⟨-, -, -, hlanes, -, -, -, hglobals, -⟩ := haltTaken_parts s c
      exact configSound_of hs (fun l => by rw [hlanes]) (haltTaken_config s c) (by rw [hglobals])
    | again c ho => exact configSound_of hs (fun _ => rfl) (fun _ => rfl) rfl
    | book => exact configSound_of hs (fun _ => rfl) (fun _ => rfl) rfl
  turn _ _ h hs := h.configSound hs
  idle _ _ _ _ _ hs := ⟨hs.1, hs.2, hs.3⟩
  blocks s p power powerOn := by
    refine ⟨fun l => ?_, fun n => ?_, (by decide : (16 : BitVec 8) ≠ 0)⟩
    · rw [show (State.resetBlocks { s with pins := p } powerOn).lanes[l] = Lane.reset by simp [State.resetBlocks]]
      exact laneConfig_reset_sound
    · rw [show (State.resetBlocks { s with pins := p } powerOn).stations[n] = Station.reset by simp [State.resetBlocks]]
      exact stationConfig_reset_sound

/-! ### References -/

/-- The references are the levels at the pins. -/
structure State.AtPins (s : State) : Prop where
  encA : s.position.refA = s.pins.encA
  encB : s.position.refB = s.pins.encB
  cfm : s.cfmRef = s.pins.cfm

theorem referencesCurrent_iff {s : State} : s.ReferencesCurrent ↔ (s.running = true → s.AtPins) :=
  ⟨fun h hr => ⟨h.encA hr, h.encB hr, h.cfm hr⟩, fun h => ⟨fun hr => (h hr).1, fun hr => (h hr).2, fun hr => (h hr).3⟩⟩

theorem atPins_of {s t : State} (hs : s.AtPins) (ha : t.position.refA = s.position.refA)
    (hb : t.position.refB = s.position.refB) (hc : t.cfmRef = s.cfmRef) (hp : t.pins = s.pins) : t.AtPins :=
  ⟨by rw [ha, hp]; exact hs.1, by rw [hb, hp]; exact hs.2, by rw [hc, hp]; exact hs.3⟩

/-- A turn that does not move the references or the pins apart. -/
theorem Turn.atPins {s t : State} (h : Turn s t) (hrun : s.running = true) (hs : s.AtPins) : t.AtPins := by
  cases h with
  | pins p hstop => exact absurd (hrun.symm.trans hstop) (by simp)
  | confirm input level => exact ⟨hs.encA, hs.encB, congrArg (fun v => upd v input fun _ => level) hs.cfm⟩
  | det l level => exact ⟨hs.encA, hs.encB, hs.cfm⟩
  | hld level => exact ⟨hs.encA, hs.encB, hs.cfm⟩
  | holdHalt ho =>
    obtain ⟨-, hpins, hposition, -, -, -, hcfm, -⟩ := haltTaken_parts ((s.setHld false).sampleHld true) .holdInput
    refine ⟨?_, ?_, ?_⟩
    · rw [hposition, hpins]
      exact hs.encA
    · rw [hposition, hpins]
      exact hs.encB
    · rw [hcfm, hpins]
      exact hs.cfm
  | pair a b => exact ⟨rfl, rfl, hs.cfm⟩
  | popWord =>
    obtain ⟨events, heq⟩ := popEventWord_parts s
    rw [heq]
    exact atPins_of hs rfl rfl rfl rfl
  | globals g ho hg =>
    refine ⟨?_, ?_, hs.cfm⟩
    · change (if _ then _ else _) = s.pins.encA
      split
      · exact hs.encA
      · rfl
    · change (if _ then _ else _) = s.pins.encB
      split
      · exact hs.encB
      · rfl
  | _ => exact atPins_of hs rfl rfl rfl rfl

theorem Turn.running_of {s t : State} (h : Turn s t) (ht : t.running = true) : s.running = true := by
  cases h with
  | pins p hrun hp =>
    rw [State.running, hp] at ht
    exact ht
  | holdHalt ho =>
    obtain ⟨hpower, hpins, -⟩ := haltTaken_parts ((s.setHld false).sampleHld true) .holdInput
    rwa [running_congr hpower hpins] at ht
  | popWord =>
    obtain ⟨events, heq⟩ := popEventWord_parts s
    rwa [heq] at ht
  | _ => exact ht

theorem kept_referencesCurrent : Kept State.ReferencesCurrent where
  work s t w h hs := by
    rw [referencesCurrent_iff, running_congr h.frame.power h.frame.pins]
    rw [referencesCurrent_iff] at hs
    intro hr
    exact atPins_of (hs hr) (by rw [h.frame.position]) (by rw [h.frame.position]) h.frame.cfmRef h.frame.pins
  settles s t h hs := by
    rw [referencesCurrent_iff] at hs ⊢
    cases h with
    | halt c ho =>
      obtain ⟨hpower, hpins, hposition, -, -, -, hcfm, -⟩ := haltTaken_parts s c
      rw [running_congr hpower hpins]
      exact fun hr => atPins_of (hs hr) (by rw [hposition]) (by rw [hposition]) hcfm hpins
    | again c ho => exact fun hr => atPins_of (hs hr) rfl rfl rfl rfl
    | book => exact fun hr => atPins_of (hs hr) rfl rfl rfl rfl
  turn s t h hs := referencesCurrent_iff.2 fun hr =>
    have hrun := h.running_of hr
    h.atPins hrun (referencesCurrent_iff.1 hs hrun)
  idle _ _ _ _ hr' _ := referencesCurrent_iff.2 fun hr => absurd (hr.symm.trans hr') (by simp)
  blocks _ _ _ _ := referencesCurrent_iff.2 fun _ => ⟨rfl, rfl, rfl⟩

/-- Settles O56: only SET_GLOBAL, SET_LANE and SET_STATION write a configuration, each after its range check, and each
pin event takes its pin and its reference to one level. -/
theorem configurationAndReferencesAreKept : Obligations.ConfigurationAndReferencesAreKept :=
  ⟨kept_configSound.step, kept_referencesCurrent.step⟩

end Sys2Proof.Machine
end

section
/-! PROOFS. What a command leaves unchanged, by its deed: the configurations (O58), the tracking position (O59), and the
operating state (O57). -/

namespace Sys2Proof.Machine

/-! ### Requests that a lane or a station raises -/

/-- A block that is no lane raises a request by a station that fails alone (R96). -/
theorem Work.requests_or_fails {s t : State} (h : Work .list s t) :
    t.control.requests = s.control.requests ∨ ∃ n : StationId, s.stations[n].runtime = .enabled ∧ t = s.failing n := by
  have hplaced {rest : List Entry} {n : StationId} {fire : Pos} {i : Item} {placed : State}
      (hp : (s.left rest).placeHolder n fire i = some placed) : placed.control = s.control := by
    obtain ⟨pos, r, rfl, -⟩ | rfl := placeHolder_cases hp <;> rfl
  cases h with
  | note h => exact .inl (congrArg Control.requests h.parts.2.1)
  | enrol l pos tag hw => exact absurd rfl hw
  | request c hw => exact absurd rfl hw
  | activate e rest n i placed ho ht hk hp => exact .inl (congrArg Control.requests (hplaced hp))
  | activateWatch e rest n i placed ho ht hk hp => exact .inl (congrArg Control.requests (hplaced hp) :)
  | fail n hr => exact .inr ⟨n, hr, rfl⟩
  | _ => exact .inl rfl

/-- With HALT_ON_FAIL off no block but a lane raises a request. -/
theorem Works.requests_kept {s t : State} (h : Works .list s t) (hf : s.globals.haltOnFail = false) :
    t.control.requests = s.control.requests := by
  refine (Works.induction (w := .list) (P := fun t => t.globals.haltOnFail = false
    ∧ t.control.requests = s.control.requests) (fun u v hw hu => ?_) h ⟨hf, rfl⟩).2
  obtain ⟨hu, hr⟩ := hu
  refine ⟨by rw [hw.frame.globals]; exact hu, ?_⟩
  obtain heq | ⟨n, -, rfl⟩ := hw.requests_or_fails
  · exact heq.trans hr
  · rw [State.failing, hu]
    exact hr

/-- A leading edge raises at most one request, and that by overflow policy HALT (R24). -/
theorem acceptLeading_requests (s : State) (l : LaneId) (pos : Pos) :
    (s.acceptLeading l pos).control.requests = s.control.requests
      ∨ (s.lanes[l].config.overflow = .halt
          ∧ (s.acceptLeading l pos).control.requests = s.control.requests ++ [.queueFull]) := by
  have hrefuse (u : State) (reason : Word) (hc : u.control = s.control)
      (hl : u.lanes[l].config = s.lanes[l].config) :
      (u.refuseAdmission l reason).control.requests = s.control.requests
        ∨ (s.lanes[l].config.overflow = .halt
            ∧ (u.refuseAdmission l reason).control.requests = s.control.requests ++ [.queueFull]) := by
    have hcontrol (d : Detector) : (((u.countLane l .refused).report .itemRefused (laneUnit l) 0 reason 0).setDetector l
        d).control = u.control := by rw [setDetector_control, report_eq, arrive_eq]; rfl
    have hconfig (d : Detector) : (((u.countLane l .refused).report .itemRefused (laneUnit l) 0 reason 0).setDetector l
        d).lanes[l].config = u.lanes[l].config := by
      refine (upd_get_proj l l Lane.config rfl).trans ?_
      rw [report_lanes]
      exact countLane_config ..
    unfold State.refuseAdmission
    dsimp only
    split
    next => exact .inl (by rw [hcontrol, hc])
    next hov =>
      rw [hconfig, hl] at hov
      exact .inr ⟨hov, by rw [requestHalt_requests, hcontrol, hc]⟩
  have hcontrol : (s.countLane l .leading).control = s.control := rfl
  have hconfig := countLane_config s l l .leading
  unfold State.acceptLeading
  dsimp only
  split
  · exact .inl rfl
  · change ((s.countLane l .leading).requestAdmission l pos).control.requests = _
      ∨ _ ∧ ((s.countLane l .leading).requestAdmission l pos).control.requests = _
    unfold State.requestAdmission
    split
    next tag _ =>
      refine .inl ?_
      rw [admitItem_eq_enroll]
      have hlink (u : State) : (u.linkAdmitted l tag).control = u.control := by
        rw [State.linkAdmitted, (notes_checkLong ..).parts.2.1]
        rfl
      rw [hlink, report_eq, arrive_eq, enroll_eq]
      rfl
    · exact hrefuse _ 1 hcontrol hconfig
    · exact hrefuse _ 2 hcontrol hconfig

/-- A trailing edge raises no request (R25, R26). -/
theorem acceptTrailing_control (s : State) (l : LaneId) (link : Option Tag) (pos : Pos) :
    (s.acceptTrailing l link pos).control = s.control := by
  cases hf : link.bind s.findItem with
  | none =>
    rw [acceptTrailing_none l pos hf]
    rfl
  | some i =>
    rw [acceptTrailing_some l pos hf, setDetector_control, State.reportTrailing]
    rw [(notes_report ..).parts.2.1, rekey_control, (notes_findings s l i pos).parts.2.1]

/-- What a lane does when its input changes raises no request but that of a refusal (R24). -/
theorem laneInput_requests (s : State) (l : LaneId) :
    (s.laneInput l).control.requests = s.control.requests
      ∨ (s.lanes[l].config.overflow = .halt
          ∧ (s.laneInput l).control.requests = s.control.requests ++ [.queueFull]) := by
  unfold State.laneInput
  split
  · exact .inl rfl
  · dsimp only
    split
    · exact .inl rfl
    · split <;> exact .inl rfl
    · split
      · split
        · exact acceptLeading_requests ..
        · exact .inl rfl
      · exact .inl rfl
    · split <;> exact .inl rfl
    · split
      · exact .inl (by rw [(notes_checkLong ..).parts.2.1]; rfl)
      · split
        · exact .inl (by rw [acceptTrailing_control])
        · exact .inl rfl

/-- What a lane does at an advance raises no request but that of a refusal. -/
theorem laneAdvance_requests (s : State) (l : LaneId) :
    (s.laneAdvance l).control.requests = s.control.requests
      ∨ (s.lanes[l].config.overflow = .halt
          ∧ (s.laneAdvance l).control.requests = s.control.requests ++ [.queueFull]) := by
  unfold State.laneAdvance
  split
  · split
    · exact acceptLeading_requests ..
    · exact .inl (by rw [acceptTrailing_control])
    · exact .inl (by rw [(notes_checkLong ..).parts.2.1])
    · exact .inl rfl
    · exact .inl rfl
    · exact .inl rfl
  · exact .inl rfl

/-! ### What stays but for a return to SETUP and START -/

/-- The configurations and the tracking position are the same. -/
structure SameSettings (s t : State) : Prop where
  laneConfig : ∀ l : LaneId, t.lanes[l].config = s.lanes[l].config
  stationConfig : ∀ n : StationId, t.stations[n].config = s.stations[n].config
  outputs : ∀ o : OutputId, t.outputs[o].activeLow = s.outputs[o].activeLow ∧ t.outputs[o].fault = s.outputs[o].fault
  mode : t.position.mode = s.position.mode
  invert : t.position.invert = s.position.invert
  tolerance : t.position.tolerance = s.position.tolerance
  globals : t.globals = s.globals
  mask : t.events.mask = s.events.mask

theorem SameSettings.refl (s : State) : SameSettings s s :=
  ⟨fun _ => rfl, fun _ => rfl, fun _ => ⟨rfl, rfl⟩, rfl, rfl, rfl, rfl, rfl⟩

theorem SameSettings.trans {s t u : State} (h : SameSettings s t) (h' : SameSettings t u) : SameSettings s u :=
  ⟨fun l => (h'.1 l).trans (h.1 l), fun n => (h'.2 n).trans (h.2 n),
    fun o => ⟨(h'.3 o).1.trans (h.3 o).1, (h'.3 o).2.trans (h.3 o).2⟩, h'.4.trans h.4, h'.5.trans h.5, h'.6.trans h.6,
    h'.7.trans h.7, h'.8.trans h.8⟩

theorem Work.sameSettings {w : Worker} {s t : State} (h : Work w s t) : SameSettings s t := by
  have hf := h.frame
  exact ⟨hf.laneConfig, hf.stationConfig, fun o => by rw [hf.outputs]; exact ⟨rfl, rfl⟩, by rw [hf.position],
    by rw [hf.position], by rw [hf.position], hf.globals, hf.mask⟩

theorem haltTaken_sameSettings (s : State) (c : Cause) : SameSettings s (s.haltTaken c) := by
  obtain ⟨-, -, hposition, hlanes, -, -, -, hglobals, -⟩ := haltTaken_parts s c
  refine ⟨fun l => by rw [hlanes], haltTaken_config s c, fun o => ?_, by rw [hposition], by rw [hposition],
    by rw [hposition], hglobals, by simp [State.haltTaken]⟩
  change s.takeFaultActions.outputs[o].activeLow = _ ∧ s.takeFaultActions.outputs[o].fault = _
  rw [takeFaultActions_output]
  exact ⟨rfl, rfl⟩

theorem Settles.sameSettings {s t : State} (h : Settles s t) : SameSettings s t := by
  cases h with
  | halt c ho => exact haltTaken_sameSettings s c
  | again c ho => exact { SameSettings.refl s with mode := rfl }
  | book => exact { SameSettings.refl s with mode := rfl }

theorem Chain.sameSettings {s t : State} (h : Chain s t) : SameSettings s t :=
  Chain.induction (P := SameSettings s) (fun _ _ _ hw hs => hs.trans hw.sameSettings)
    (fun _ _ hc hs => hs.trans hc.sameSettings) h (.refl s)

theorem Chain.position {s t : State} (h : Chain s t) : t.position = s.position := by
  refine Chain.induction (P := fun t => t.position = s.position) (fun _ _ _ hw hs => hw.frame.position.trans hs)
    (fun u v hc hs => ?_) h rfl
  cases hc with
  | halt c ho => exact (haltTaken_parts u c).2.2.1.trans hs
  | again c ho => exact hs
  | book => exact hs

/-- Within a chain the operating state stays, or TRACKING is left for HALTED. -/
theorem Chain.op {s t : State} (h : Chain s t) :
    t.control.op = s.control.op ∨ (s.control.op = .tracking ∧ t.control.op = .halted) := by
  refine Chain.induction (P := fun t => t.control.op = s.control.op ∨ (s.control.op = .tracking ∧ t.control.op = .halted))
    (fun _ _ _ hw hs => by rwa [hw.frame.op]) (fun u v hc hs => ?_) h (.inl rfl)
  cases hc with
  | halt c ho =>
    obtain heq | ⟨-, hhalted⟩ := hs
    · exact .inr ⟨heq.symm.trans ho, rfl⟩
    · exact absurd (ho.symm.trans hhalted) (by simp)
  | again c ho => exact hs
  | book => exact hs

theorem pair_sameSettings (s : State) (a b : Level) : SameSettings s (s.atPair a b) :=
  { SameSettings.refl s with mode := rfl }

theorem takeAdvance_chain (s : State) : ∃ t, Chain s t ∧ (s.takeAdvance = t ∨ s.takeAdvance = t.settleFiringPoint) := by
  refine ⟨_, chain_runTasks taskFuel s.advanceTasks s, ?_⟩
  unfold State.takeAdvance State.settleTracking
  split
  · exact .inl rfl
  · exact .inr rfl
  · exact .inl rfl

theorem takeAdvance_sameSettings (s : State) : SameSettings s s.takeAdvance := by
  obtain ⟨t, hchain, heq | heq⟩ := takeAdvance_chain s
  · rw [heq]
    exact hchain.sameSettings
  · rw [heq]
    exact hchain.sameSettings.trans { SameSettings.refl t with mode := rfl }

theorem takeAdvance_position (s : State) : s.takeAdvance.position = s.position := by
  obtain ⟨t, hchain, heq | heq⟩ := takeAdvance_chain s <;> rw [heq] <;> exact hchain.position

theorem moveCounter_sameSettings (s : State) (counter : Pos) : SameSettings s (s.moveCounter counter) :=
  SameSettings.trans (t := s.setPositions counter s.position.tracking) { SameSettings.refl s with mode := rfl }
    (moveCounter_chain s counter).sameSettings

theorem moveCounter_tracking (s : State) (counter : Pos) :
    (s.moveCounter counter).position.tracking = s.position.tracking := by
  rw [(moveCounter_chain s counter).position]
  rfl

theorem popEventWord_mask (s : State) : s.popEventWord.events.mask = s.events.mask := by
  unfold State.popEventWord
  split
  · rfl
  · split <;> rfl

theorem popEventWord_sameSettings (s : State) : SameSettings s s.popEventWord := by
  have hmask := popEventWord_mask s
  obtain ⟨events, heq⟩ := popEventWord_parts s
  rw [heq] at hmask ⊢
  exact { SameSettings.refl s with mask := hmask }

theorem returnToSetup_sameSettings (s : State) : SameSettings s s.returnToSetup := by
  refine { SameSettings.refl s with laneConfig := fun l => ?_, stationConfig := fun n => ?_, outputs := fun o => ?_ }
  · change (mapAll _ s.lanes)[l].config = _
    rw [mapAll_get]
    rfl
  · change (mapAll _ s.stations)[n].config = _
    rw [mapAll_get]
    rfl
  · change (mapAll _ s.outputs)[o].activeLow = _ ∧ (mapAll _ s.outputs)[o].fault = _
    rw [mapAll_get]
    exact ⟨rfl, rfl⟩

theorem clearRun_sameSettings (s : State) : SameSettings s s.clearRun := by
  refine { SameSettings.refl s with laneConfig := fun l => ?_, stationConfig := fun n => ?_ }
  · change (mapAll _ s.lanes)[l].config = _
    rw [mapAll_get]
  · change (mapAll _ s.stations)[n].config = _
    rw [mapAll_get]

/-- RESUME in parts: the catch-up and its event, the entry into TRACKING, and what follows it. -/
theorem resumeRun_parts (s : State) : ∃ u, Works .list s u ∧ Chain u.resumed s.resumeRun.state := by
  have hreport := (notes_report (State.catchUpLoop s.list.entries.length 0 0 s).1 .resumed 0 0
    (BitVec.ofNat 16 s.catchUp.2.1) (BitVec.ofNat 16 s.catchUp.2.2))
  refine ⟨_, (works_catchUpLoop .list s.list.entries.length 0 0 s).trans (hreport.works .list), ?_⟩
  rw [← reportResumed_enterTracking]
  exact (chain_resumeSampling _).trans (chain_resumeOverReverse _)

theorem resumed_sameSettings (s : State) : SameSettings s s.resumed := by
  refine { SameSettings.refl s with outputs := fun o => ?_ }
  change (mapAll _ s.outputs)[o].activeLow = _ ∧ (mapAll _ s.outputs)[o].fault = _
  rw [mapAll_get]
  exact ⟨rfl, rfl⟩

theorem updStation_sameSettings (s : State) (n : StationId) {f : Station → Station} (hf : ∀ x, (f x).config = x.config) :
    SameSettings s (s.updStation n f) :=
  { SameSettings.refl s with stationConfig := fun m => upd_get_proj n m Station.config (hf _) }

/-- Outside SETUP no deed changes a configuration. -/
theorem Deed.sameSettings {c : Instr} {s t : State} (h : Deed c s t) (ho : s.control.op ≠ .setup) : SameSettings s t := by
  cases h with
  | quiet h hr => exact h.chain.sameSettings
  | expiry n => exact (works_missHead .list s n 0).chain.sameSettings
  | edge input rising h hr =>
    exact SameSettings.trans (t := s.atCfmEdge input rising) { SameSettings.refl s with mode := rfl } h.chain.sameSettings
  | input l level hl =>
    exact SameSettings.trans (t := s.setDet l level) { SameSettings.refl s with mode := rfl }
      (works_laneInput _ l).chain.sameSettings
  | hold hhld =>
    exact SameSettings.trans (t := (s.setHld false).sampleHld true) { SameSettings.refl s with mode := rfl }
      (chain_takeHalt _ _).sameSettings
  | noStep a b => exact pair_sameSettings s a b
  | error a b =>
    refine (pair_sameSettings s a b).trans ?_
    unfold State.encoderError
    exact { SameSettings.refl _ with mode := rfl }
  | setupStep a b counter ho' => exact absurd ho' ho
  | advance a b ho' hr =>
    refine (pair_sameSettings s a b).trans (SameSettings.trans (t := (s.atPair a b).stepped) ?_ (takeAdvance_sameSettings _))
    exact { SameSettings.refl _ with mode := rfl }
  | shift a b counter ho' => exact (pair_sameSettings s a b).trans (moveCounter_sameSettings _ counter)
  | overReverse a b counter ho' =>
    refine ((pair_sameSettings s a b).trans (moveCounter_sameSettings _ counter)).trans ?_
    exact { SameSettings.refl _ with mode := rfl }
  | popWord => exact popEventWord_sameSettings s
  | globals g ho' => exact absurd ho' ho
  | laneConfig l c ho' => exact absurd ho' ho
  | stationConfig n c ho' => exact absurd ho' ho
  | output o f ho' => exact absurd ho' ho
  | preset value ho' => exact absurd ho' ho
  | start hrun ho' => exact absurd ho' ho
  | stop ho' => exact returnToSetup_sameSettings s
  | reinit => exact (returnToSetup_sameSettings s).trans (clearRun_sameSettings _)
  | halt ho' => exact (chain_takeHalt s _).sameSettings
  | resume ho' hhld =>
    obtain ⟨u, hworks, hchain⟩ := resumeRun_parts s
    exact (hworks.chain.sameSettings.trans (resumed_sameSettings u)).trans hchain.sameSettings
  | clearFailed n ho' hr => exact updStation_sameSettings s n fun _ => rfl
  | switchOn n ho' hchecks => exact updStation_sameSettings s n fun _ => rfl
  | _ => exact { SameSettings.refl s with mode := rfl }

theorem window_parts {s t : State} (h : s.SameButWindow t) :
    SameSettings s t ∧ t.position = s.position ∧ t.control = s.control := by
  obtain ⟨host, readData, rfl⟩ := h
  exact ⟨{ SameSettings.refl s with mode := rfl }, rfl, rfl⟩

/-- Settles O58: outside SETUP no deed of a command writes a configuration, and neither does the taking of requests. -/
theorem configurationIsFixedOutsideSetup : Obligations.ConfigurationIsFixedOutsideSetup := by
  intro c s t hreset ho h
  have hsame : SameSettings s t := by
    obtain ⟨-, u, ⟨v, hdeed, hwindow⟩, rfl⟩ | ⟨-, p, readData, -, rfl⟩ := exec_runs hreset h
    · have hbefore : SameSettings s (s.withRequests []) := (chain_withRequests s []).sameSettings
      have hafter := Chain.sameSettings
        ((chain_withRequests u (s.requestsBefore ++ u.control.requests)).trans (chain_arriveHalts _))
      exact ((hbefore.trans (hdeed.sameSettings ho)).trans (window_parts hwindow).1).trans hafter
    · exact { SameSettings.refl s with mode := rfl }
  exact ⟨hsame.laneConfig, hsame.stationConfig, hsame.outputs, hsame.mode, hsame.invert, hsame.tolerance, hsame.globals,
    hsame.mask⟩

/-! ### The tracking position -/

/-- Outside SETUP the tracking position moves at an advance alone. -/
theorem Deed.tracking {c : Instr} {s t : State} (h : Deed c s t) (ho : s.control.op ≠ .setup) (ho' : t.control.op ≠ .setup) :
    t.position.tracking = s.position.tracking
      ∨ (t.position.tracking = s.position.tracking + 1 ∧ s.reverse = 0 ∧ ∃ a b, c = .encoderTransition a b) := by
  cases h with
  | quiet h hr => exact .inl (by rw [h.chain.position])
  | expiry n => exact .inl (by rw [(works_missHead .list s n 0).chain.position])
  | edge input rising h hr => exact .inl (by rw [h.chain.position]; rfl)
  | input l level hl => exact .inl (by rw [(works_laneInput _ l).chain.position]; rfl)
  | hold hhld => exact .inl (by rw [(chain_takeHalt _ _).position]; rfl)
  | setupStep a b counter hs => exact absurd hs ho
  | advance a b _ hr =>
    refine .inr ⟨?_, hr, a, b, rfl⟩
    rw [takeAdvance_position]
    rfl
  | shift a b counter _ => exact .inl (moveCounter_tracking ..)
  | overReverse a b counter _ => exact .inl (moveCounter_tracking ..)
  | popWord =>
    obtain ⟨events, heq⟩ := popEventWord_parts s
    exact .inl (by rw [heq])
  | globals g hs => exact absurd hs ho
  | preset value hs => exact absurd hs ho
  | start hrun hs => exact absurd hs ho
  | stop _ => exact absurd rfl ho'
  | reinit => exact absurd rfl ho'
  | halt _ => exact .inl (by rw [(chain_takeHalt _ _).position])
  | resume _ hhld =>
    obtain ⟨u, hworks, hchain⟩ := resumeRun_parts s
    refine .inl ?_
    rw [hchain.position]
    change u.position.tracking = _
    rw [hworks.chain.position]
  | _ => exact .inl rfl

/-- From SETUP no chain leaves it, and to SETUP none comes. -/
theorem Chain.op_ne_setup {s t : State} (h : Chain s t) : s.control.op ≠ .setup ↔ t.control.op ≠ .setup := by
  obtain heq | ⟨hs, ht⟩ := h.op
  · rw [heq]
  · simp [hs, ht]

/-- Settles O59: of the deeds outside SETUP only an advance moves the tracking position, by one count. -/
theorem trackingPositionNeverFallsBack : Obligations.TrackingPositionNeverFallsBack := by
  intro c s t hreset ho ho' h
  obtain ⟨-, u, ⟨v, hdeed, hwindow⟩, rfl⟩ | ⟨-, p, readData, -, rfl⟩ := exec_runs hreset h
  · obtain ⟨-, hposition, hcontrol⟩ := window_parts hwindow
    have hafter := (chain_withRequests u (s.requestsBefore ++ u.control.requests)).trans (chain_arriveHalts _)
    have hu : u.control.op ≠ .setup := (Chain.op_ne_setup hafter).2 ho'
    rw [hcontrol] at hu
    rw [Chain.position hafter, hposition]
    exact hdeed.tracking ho hu
  · exact .inl rfl

/-! ### The operating state -/

/-- What a deed does to the operating state (R136). -/
inductive OpMove (c : Instr) (s t : State) : Prop
  /-- it stays, and no request is raised -/
  | stays (h : t.control.op = s.control.op) (hr : t.control.requests = s.control.requests)
  /-- outside TRACKING it stays -/
  | outside (h : t.control.op = s.control.op) (ho : s.control.op ≠ .tracking)
  /-- TRACKING may be left for HALTED, by an event that may raise a request or by HALT -/
  | halts (ho : s.control.op = .tracking) (h : t.control.op ≠ .setup)
      (hc : c = .halt ∨ (c = .hldAssert ∧ s.control.hldAsserted = false) ∨ (∃ a b, c = .encoderTransition a b)
        ∨ (∃ l level, c = .detInputChange l level ∧ s.lanes[l].config.overflow = .halt)
        ∨ ∃ n, c = .watchExpiry n ∧ s.globals.haltOnFail = true)
  | starts (hc : c = .start) (ho : s.control.op = .setup) (h : t.control.op = .tracking) (hr : t.control.requests = s.control.requests)
  | resumes (hc : c = .resume) (ho : s.control.op = .halted) (h : t.control.op ≠ .setup)
  | returns (hc : c = .stop ∨ c = .reinit) (h : t.control.op = .setup)

/-- A chain that is part of an event which may raise a request. -/
theorem opMove_of_chain {c : Instr} {s u t : State} (h : Chain u t) (hu : u.control.op = s.control.op)
    (hc : c = .halt ∨ (c = .hldAssert ∧ s.control.hldAsserted = false) ∨ (∃ a b, c = .encoderTransition a b)
      ∨ (∃ l level, c = .detInputChange l level ∧ s.lanes[l].config.overflow = .halt)
      ∨ ∃ n, c = .watchExpiry n ∧ s.globals.haltOnFail = true) : OpMove c s t := by
  by_cases ho : s.control.op = .tracking
  · exact .halts ho ((Chain.op_ne_setup h).1 (by rw [hu, ho]; simp)) hc
  · refine .outside ?_ ho
    obtain heq | ⟨htracking, -⟩ := h.op
    · exact heq.trans hu
    · exact absurd (hu.symm.trans htracking) ho

theorem Deed.opMove {c : Instr} {s t : State} (h : Deed c s t) : OpMove c s t := by
  have hencoder (a b : Level) {u v : State} (hc : Chain u v) (hu : u.control.op = s.control.op) :
      OpMove (.encoderTransition a b) s v := opMove_of_chain hc hu (.inr (.inr (.inl ⟨a, b, rfl⟩)))
  cases h with
  | quiet h hr => exact .stays h.frame.op hr
  | expiry n =>
    have hworks := works_missHead .list s n 0
    by_cases hf : s.globals.haltOnFail = true
    · exact opMove_of_chain hworks.chain rfl (.inr (.inr (.inr (.inr ⟨n, rfl, hf⟩))))
    · exact .stays hworks.frame.op (Works.requests_kept hworks (by simpa using hf))
  | edge input rising h hr => exact .stays h.frame.op hr
  | input l level hl =>
    have hworks := works_laneInput (s.setDet l level) l
    obtain hr | ⟨hov, -⟩ := laneInput_requests (s.setDet l level) l
    · exact .stays hworks.frame.op hr
    · exact opMove_of_chain hworks.chain rfl (.inr (.inr (.inr (.inl ⟨l, level, rfl, hov⟩))))
  | hold hhld =>
    exact opMove_of_chain (chain_takeHalt ((s.setHld false).sampleHld true) .holdInput) rfl (.inr (.inl ⟨rfl, hhld⟩))
  | error a b =>
    have hop : (s.atPair a b).encoderError.control.op = s.control.op := by
      unfold State.encoderError
      dsimp only
      split <;> rfl
    exact hencoder a b .refl hop
  | advance a b ho hr =>
    obtain ⟨v, hchain, heq | heq⟩ := takeAdvance_chain (s.atPair a b).stepped
    · rw [heq]
      exact hencoder a b hchain rfl
    · rw [heq]
      obtain hstay | hout | ⟨ho', hne, hc⟩ | hstart | hresume | hreturn := hencoder a b hchain rfl
      · exact .stays hstay ‹_›
      · exact .outside hout ‹_›
      · exact .halts ho' hne hc
      · exact .starts hstart ‹_› ‹_› ‹_›
      · exact .resumes hresume ‹_› ‹_›
      · exact .returns hreturn ‹_›
  | shift a b counter ho =>
    exact hencoder a b (moveCounter_chain (s.atPair a b) counter) rfl
  | overReverse a b counter ho =>
    exact hencoder a b ((moveCounter_chain (s.atPair a b) counter).trans (chain_withRequests _ (_ ++ [.overReverse]))) rfl
  | popWord => exact .stays (by rw [popEventWord_control]) (by rw [popEventWord_control])
  | start hrun ho hhld hchecks => exact .starts rfl ho rfl rfl
  | stop ho => exact .returns (.inl rfl) rfl
  | reinit => exact .returns (.inr rfl) rfl
  | halt ho => exact opMove_of_chain (chain_takeHalt s .host) rfl (.inl rfl)
  | resume ho hhld =>
    obtain ⟨u, hworks, hchain⟩ := resumeRun_parts s
    exact .resumes rfl ho ((Chain.op_ne_setup hchain).1 (by simp [State.resumed]))
  | _ => exact .stays rfl rfl

theorem requestsBefore_none {s : State} (h : s.control.op = .setup ∨ s.control.requests = []) : s.requestsBefore = [] := by
  unfold State.requestsBefore
  split
  next => rfl
  next ho => exact h.resolve_left (ho.trans_ne (by simp))
  next ho => exact h.resolve_left (ho.trans_ne (by simp))

theorem oneLess_eq_zero {t : Word} : oneLess t = 0 ↔ t.toNat ≤ 1 := by
  unfold oneLess
  split
  next h => simp [h]
  next h =>
    rw [sub_eq_zero]
    constructor
    · rintro rfl
      decide
    · intro hle
      have hne : t.toNat ≠ 0 := fun h0 => h (BitVec.eq_of_toNat_eq h0)
      exact BitVec.eq_of_toNat_eq (show t.toNat = 1 by omega)

/-- The stations with every running time counted down. -/
def State.countedDown (s : State) : State := { s with stations := mapAll Station.countDown s.stations }

/-- A watch is due at a tick when its last tick of time is taken. -/
theorem watchDue_countedDown {s : State} {n : StationId} (h : s.countedDown.watchDue n = true) :
    ∃ w ∈ s.stations[n].watches, w.timeLeft.toNat ≤ 1 := by
  unfold State.watchDue at h
  rw [show s.countedDown.stations[n] = s.stations[n].countDown from mapAll_get ..] at h
  unfold Station.countDown at h
  dsimp only at h
  cases hw : s.stations[n].watches with
  | nil =>
    rw [hw] at h
    cases h
  | cons w rest =>
    rw [hw] at h
    refine ⟨w, List.mem_cons_self, oneLess_eq_zero.1 ?_⟩
    simpa using h

/-- The watches that expire at a tick, before the time pulses end. -/
def State.watchesExpired (s : State) : State :=
  inFreeOrder (fun n t => State.expireDue t.stations[n].watches.length n t)
    (stationIds.filter s.countedDown.watchDue).length (stationIds.filter s.countedDown.watchDue) s.countedDown

theorem tick_eq (s : State) : s.tick = s.watchesExpired.endDuePulses := rfl

theorem endDuePulses_op {s : State} (h : s.control.requests = []) :
    s.endDuePulses.control = s.control := by
  unfold State.endDuePulses
  rw [h]
  dsimp only
  exact foldl_induction (P := fun t => t.control = s.control) (act := State.endPulse) (fun t n ht => ht) _ rfl

theorem countChoice_control {α : Type} (s : State) (xs : List α) : (s.countChoice xs).control = s.control := by
  unfold State.countChoice
  split <;> rfl

theorem countChoice_globals {α : Type} (s : State) (xs : List α) : (s.countChoice xs).globals = s.globals := by
  unfold State.countChoice
  split <;> rfl

/-- With no watch due, or HALT_ON_FAIL off, a tick raises no request and leaves the operating state. -/
theorem watchesExpired_control {s : State} (h : s.globals.haltOnFail = false
      ∨ ∀ n : StationId, s.countedDown.watchDue n = false) :
    s.watchesExpired.control.op = s.control.op ∧ s.watchesExpired.control.requests = s.control.requests := by
  unfold State.watchesExpired
  obtain hf | hnone := h
  · have hkept := inFreeOrder_induction (P := fun t : State => t.globals.haltOnFail = false
        ∧ t.control.op = s.control.op ∧ t.control.requests = s.control.requests)
      (act := fun n t => State.expireDue t.stations[n].watches.length n t)
      (fun t ys ht => by rwa [countChoice_control, countChoice_globals])
      (fun n t ht => ?_)
      (stationIds.filter s.countedDown.watchDue).length (stationIds.filter s.countedDown.watchDue)
      (s := s.countedDown) ⟨hf, rfl, rfl⟩
    · exact hkept.2
    · obtain ⟨hf', hop, hr⟩ := ht
      have hworks := works_expireDue .list t.stations[n].watches.length n t
      exact ⟨by rw [hworks.frame.globals]; exact hf', hworks.frame.op.trans hop,
        (Works.requests_kept hworks hf').trans hr⟩
  · rw [List.filter_eq_nil_iff.2 fun n _ => by simp [hnone n]]
    exact ⟨rfl, rfl⟩

/-- An idle step leaves the operating state, but for a request on its way or a station that fails (R96, R140). -/
theorem clockPeriod_op (s : State) :
    s.clockPeriod.control.op = s.control.op
      ∨ (s.control.op = .tracking ∧ s.clockPeriod.control.op = .halted ∧ s.running = true
          ∧ (s.control.requests ≠ []
              ∨ (s.globals.haltOnFail = true ∧ ∃ n : StationId, ∃ w ∈ s.stations[n].watches, w.timeLeft.toNat ≤ 1))) := by
  by_cases hrun : s.running = true
  · obtain ⟨phase, hchain⟩ := clockPeriod_chain hrun
    have hphase : (s.arriveHalts.atPhase phase).control = s.arriveHalts.control := rfl
    by_cases hcause : s.control.requests ≠ []
        ∨ (s.globals.haltOnFail = true ∧ ∃ n : StationId, ∃ w ∈ s.stations[n].watches, w.timeLeft.toNat ≤ 1)
    · obtain h1 | ⟨h1, h1'⟩ := (chain_arriveHalts s).op
      · obtain h2 | ⟨h2, h2'⟩ := hchain.op
        · exact .inl (h2.trans h1)
        · exact .inr ⟨h1.symm.trans h2, h2', hrun, hcause⟩
      · obtain h2 | ⟨h2, h2'⟩ := hchain.op
        · exact .inr ⟨h1, h2.trans h1', hrun, hcause⟩
        · exact absurd (h1'.symm.trans h2) (by simp)
    · obtain ⟨hr, hnone⟩ := not_or.1 hcause
      have hr : s.control.requests = [] := by simpa using hr
      refine .inl ?_
      rw [State.clockPeriod, if_pos hrun, arriveHalts_none hr, State.clock]
      split
      · have htick : s.globals.haltOnFail = false
            ∨ ∀ n : StationId, (s.atPhase 0).countedDown.watchDue n = false := by
          by_cases hf : s.globals.haltOnFail = true
          · refine .inr fun n => ?_
            by_contra hdue
            exact hnone ⟨hf, n, watchDue_countedDown (s := s.atPhase 0) (by simpa using hdue)⟩
          · exact .inl (by simpa using hf)
        obtain ⟨hop, hrequests⟩ := watchesExpired_control (s := s.atPhase 0) htick
        have hrequests' : (s.atPhase 0).watchesExpired.control.requests = [] := hrequests.trans hr
        have hcontrol := endDuePulses_op hrequests'
        change (s.atPhase 0).tick.arriveHalts.control.op = _
        rw [tick_eq, arriveHalts_none (by rw [hcontrol]; exact hrequests'), hcontrol]
        exact hop
      · rw [arriveHalts_none]
        exact hr
  · exact .inl (by rw [State.clockPeriod, if_neg hrun])

/-- The table of R136, from what a deed does and what the requests that arrive after it can do. -/
theorem OpMove.table {c : Instr} {s v : State} (h : OpMove c s v) (hs : s.control.requests = []) {op : OpState}
    {before : List Cause} (harrives : op = v.control.op ∨ (v.control.op = .tracking ∧ op = .halted))
    (hnone : s.control.op = .setup ∨ before = [] → v.control.requests = [] → op = v.control.op) :
    (s.control.op = .setup → op ≠ .setup → c = .start ∧ op = .tracking)
    ∧ (s.control.op = .halted → op = .tracking → c = .resume)
    ∧ (s.control.op ≠ .setup → op = .setup → c = .stop ∨ c = .reinit)
    ∧ (s.control.op = .tracking → before = [] → op = .halted →
        c = .halt ∨ (c = .hldAssert ∧ s.control.hldAsserted = false) ∨ (∃ a b, c = .encoderTransition a b)
          ∨ (∃ l level, c = .detInputChange l level ∧ s.lanes[l].config.overflow = .halt)
          ∨ ∃ n, c = .watchExpiry n ∧ s.globals.haltOnFail = true) := by
  cases h with
  | stays h hr =>
    rw [hr, hs, h] at hnone
    rw [h] at harrives
    have hkeeps (hb : s.control.op = .setup ∨ before = []) := hnone hb rfl
    refine ⟨fun h1 h2 => absurd ((hkeeps (.inl h1)).trans h1) h2, fun h1 h2 => ?_, fun h1 h2 => ?_,
      fun h1 h2 h3 => absurd (h3.symm.trans ((hkeeps (.inr h2)).trans h1)) (by simp)⟩
    all_goals simp_all
  | outside h ho =>
    rw [h] at harrives
    refine ⟨fun h1 h2 => ?_, fun h1 h2 => ?_, fun h1 h2 => ?_, fun h1 => absurd h1 ho⟩
    all_goals simp_all
  | halts ho h hc =>
    refine ⟨fun h1 => absurd (ho.symm.trans h1) (by simp), fun h1 => absurd (ho.symm.trans h1) (by simp),
      fun _ h2 => ?_, fun _ _ _ => hc⟩
    simp_all
  | starts hc ho h hr =>
    refine ⟨fun h1 _ => ⟨hc, (hnone (.inl h1) (hr.trans hs)).trans h⟩, fun h1 => absurd (ho.symm.trans h1) (by simp),
      fun h1 => absurd ho h1, fun h1 => absurd (ho.symm.trans h1) (by simp)⟩
  | resumes hc ho h =>
    refine ⟨fun h1 => absurd (ho.symm.trans h1) (by simp), fun _ _ => hc, fun _ h2 => ?_,
      fun h1 => absurd (ho.symm.trans h1) (by simp)⟩
    simp_all
  | returns hc h =>
    refine ⟨fun _ h2 => ?_, fun _ h2 => ?_, fun _ _ => hc, fun _ _ h3 => ?_⟩
    all_goals simp_all

/-- Settles O57: by what its deed does to the operating state, and by what the requests that arrive after it can do. -/
theorem operatingStateChanges : Obligations.OperatingStateChanges := by
  refine ⟨fun c s t hreset h => ?_, fun s t hp h => ?_⟩
  · obtain ⟨-, u, ⟨v, hdeed, hwindow⟩, rfl⟩ | ⟨-, p, readData, -, rfl⟩ := exec_runs hreset h
    · obtain ⟨-, -, hcontrol⟩ := window_parts hwindow
      have harrives := Chain.op
        ((chain_withRequests u (s.requestsBefore ++ u.control.requests)).trans (chain_arriveHalts _))
      rw [hcontrol] at harrives ⊢
      refine hdeed.opMove.table rfl harrives fun hb hr => ?_
      rw [requestsBefore_none hb, hr, arriveHalts_none rfl, withRequests_op, hcontrol]
    · exact ⟨fun h h' => absurd h h', fun h h' => absurd (h.symm.trans h') (by simp), fun h h' => absurd h' h,
        fun h _ h' => absurd (h.symm.trans h') (by simp)⟩
  · rw [step_nil hp] at h
    obtain rfl := Host.Outcome.next.inj h
    exact clockPeriod_op s

end Sys2Proof.Machine
end

section
/-! PROOFS. The belt and the list (O60), first part: distances, what holds a detector's capture close to the belt, and
the layer of the invariant that says where the entries lie. -/

namespace Sys2Proof.Machine

/-! ### Distances -/

theorem sub_toNat (p q : Pos) : (p - q).toNat = (2 ^ 32 - q.toNat + p.toNat) % 2 ^ 32 := BitVec.toNat_sub p q

/-- Distances add up while they stay within the counter. -/
theorem dist_add {p q r : Pos} (h : (p - q).toNat + (q - r).toNat < 2 ^ 32) :
    (p - r).toNat = (p - q).toNat + (q - r).toNat := by
  have hp := p.isLt
  have hq := q.isLt
  have hr := r.isLt
  rw [sub_toNat, sub_toNat] at h
  rw [sub_toNat, sub_toNat, sub_toNat]
  omega

/-- From a position that comes first, the rest of the distance. -/
theorem dist_sub {p q r : Pos} (h : (q - r).toNat ≤ (p - r).toNat) :
    (p - q).toNat = (p - r).toNat - (q - r).toNat := by
  have hp := p.isLt
  have hq := q.isLt
  have hr := r.isLt
  rw [sub_toNat, sub_toNat] at h
  rw [sub_toNat, sub_toNat, sub_toNat]
  omega

theorem dist_self (p : Pos) : (p - p).toNat = 0 := by simp

theorem dist_eq_zero {p q : Pos} : (p - q).toNat = 0 ↔ p = q := by
  constructor
  · intro h
    exact sub_eq_zero.1 (BitVec.eq_of_toNat_eq h)
  · rintro rfl
    exact dist_self p

theorem dist_eq {p q r : Pos} (h : (p - r).toNat = (q - r).toNat) : p = q := by
  have heq := BitVec.eq_of_toNat_eq h
  exact sub_left_injective heq

theorem dist_offset (p d : Pos) : (p + d - p).toNat = d.toNat := by
  rw [add_sub_cancel_left]

theorem wide_toNat (d : Distance) : (wide d).toNat = d.toNat := by
  have := d.isLt
  simp only [wide, BitVec.zeroExtend, BitVec.toNat_setWidth]
  omega

theorem word_toNat (w : Word) : (w.zeroExtend 32 : Pos).toNat = w.toNat := by
  have := w.isLt
  simp only [BitVec.zeroExtend, BitVec.toNat_setWidth]
  omega

theorem ahead_iff {p q : Pos} : ahead p q = true ↔ 1 ≤ (p - q).toNat ∧ (p - q).toNat < 2 ^ 31 := by
  simp only [ahead, decide_eq_true_eq]

theorem behind_iff {p q : Pos} : behind p q = true ↔ 2 ^ 31 ≤ (p - q).toNat := by simp only [behind, decide_eq_true_eq]

theorem hasReached_false {s : State} {p : Pos} (h : s.hasReached p = false) : ahead p s.position.tracking = true := by
  simp only [State.hasReached, Bool.or_eq_false_iff, beq_eq_false_iff_ne, behind, decide_eq_false_iff_not, not_le] at h
  obtain ⟨hne, hlt⟩ := h
  refine ahead_iff.2 ⟨?_, hlt⟩
  have hpos : (p - s.position.tracking).toNat ≠ 0 := fun h0 => hne (dist_eq_zero.1 h0)
  omega

/-- A distance counted from a leading position that the belt has passed by less. -/
theorem dist_from_leading {here leading : Pos} {d : Distance} (h : (here - leading).toNat ≤ d.toNat) :
    (leading + wide d - here).toNat = d.toNat - (here - leading).toNat := by
  rw [dist_sub (r := leading) (by rw [dist_offset, wide_toNat]; exact h), dist_offset, wide_toNat]

theorem ahead_from_leading {here leading : Pos} {d : Distance} (h : (here - leading).toNat < d.toNat) :
    ahead (leading + wide d) here = true := by
  have hd := d.isLt
  rw [ahead_iff, dist_from_leading (le_of_lt h)]
  omega

/-- The end of a pulse lies ahead of the entry that starts it, by a pulse length at most (R77, R100). -/
theorem holder_dist {s : State} (hs : s.ConfigSound) {n : StationId} {fire pos : Pos} {i : Item} {r : Bool}
    (h : (s.stations[n].config.mode = .count ∧ pos = fire + s.stations[n].config.pulseWord.zeroExtend 32)
      ∨ (s.stations[n].config.mode = .item ∧ itemOff s.stations[n].config fire i.trailing = some (pos, r))) :
    1 ≤ (pos - fire).toNat ∧ (pos - fire).toNat < 2 ^ 16 := by
  have hsound := hs.stations n
  have hword {w : Word} (hw : w ≠ 0) : 1 ≤ (fire + w.zeroExtend 32 - fire).toNat
      ∧ (fire + w.zeroExtend 32 - fire).toNat < 2 ^ 16 := by
    have hne : w.toNat ≠ 0 := fun h0 => hw (BitVec.eq_of_toNat_eq h0)
    rw [dist_offset, word_toNat]
    exact ⟨Nat.one_le_iff_ne_zero.2 hne, w.isLt⟩
  obtain ⟨hm, rfl⟩ | ⟨hm, hoff⟩ := h
  · exact hword (hsound.length (by rw [hm]; simp)).1
  · have hcap := hsound.cap hm
    unfold itemOff at hoff
    dsimp only at hoff
    split at hoff
    · obtain ⟨rfl, -⟩ := Prod.mk.inj (Option.some.inj hoff)
      exact hword hcap
    next t _ =>
      split at hoff
      next htail =>
        obtain ⟨rfl, -⟩ := Prod.mk.inj (Option.some.inj hoff)
        split
        next hbehind =>
          rw [ahead_iff] at htail
          rw [behind_iff] at hbehind
          obtain ⟨hcap1, hcap2⟩ := hword hcap
          refine ⟨htail.1, ?_⟩
          by_contra hle
          have hsub := dist_sub (p := t + s.stations[n].config.pulseWord.zeroExtend 32)
            (q := fire + s.stations[n].config.capWord.zeroExtend 32) (r := fire) (by omega)
          omega
        next => exact hword hcap
      next => cases hoff

/-! ### Captures -/

/-- The capture of lane `l`, where detection runs, lies less than the filter distance and `slack` behind the belt, with
the input active (R20, R21). -/
def State.HeldAt (s : State) (slack : Nat) (l : LaneId) : Prop :=
  s.control.op = .tracking → s.reverse = 0 → ∀ capture, s.lanes[l].detector = .filtering capture →
    s.inputActive l = true ∧ (s.position.tracking - capture).toNat < s.lanes[l].config.filter.toNat + slack

/-- Captures stand only in lanes with a filter distance, outside SETUP (R20). -/
def State.Filters (s : State) : Prop :=
  s.control.op ≠ .setup → ∀ (l : LaneId) (capture : Pos),
    s.lanes[l].detector = .filtering capture → s.lanes[l].config.filter ≠ 0

theorem State.HeldAt.mono {s : State} {l : LaneId} (h : s.HeldAt 0 l) : s.HeldAt 1 l := by
  intro ho hr capture hd
  obtain ⟨hactive, hdist⟩ := h ho hr capture hd
  exact ⟨hactive, Nat.lt_succ_of_lt hdist⟩

/-- What makes one lane's capture the same. -/
theorem heldAt_congr {s t : State} {k : Nat} {l : LaneId} (h : s.HeldAt k l) (ho : t.control.op = .tracking → s.control.op = .tracking)
    (ht : t.position.tracking = s.position.tracking) (hc : t.position.counter = s.position.counter)
    (hl : t.lanes[l].detector = s.lanes[l].detector) (hconf : t.lanes[l].config = s.lanes[l].config)
    (hp : t.pins.det[l] = s.pins.det[l]) : t.HeldAt k l := by
  intro hop hr capture hd
  have hr' : s.reverse = 0 := by rwa [State.reverse, ht, hc] at hr
  rw [State.inputActive, hp, hconf, ht]
  exact h (ho hop) hr' capture (hl ▸ hd)

/-- The detectors after a work: each as it was, but for the one a note sets. -/
theorem Work.detector {w : Worker} {s t : State} (h : Work w s t) (l : LaneId) :
    t.lanes[l].detector = s.lanes[l].detector
      ∨ ∀ capture, t.lanes[l].detector = .filtering capture →
          capture = s.position.tracking ∧ s.inputActive l = true
            ∧ (s.lanes[l].config.filter ≠ 0 ∨ ∃ before, s.lanes[l].detector = .filtering before) := by
  cases h with
  | note h =>
    cases h with
    | event r => exact .inl (by rw [arrive_eq])
    | lane m f hf => exact .inl (upd_get_proj m l Lane.detector (hf _).2)
    | detector m d hon hd =>
      by_cases hlm : l = m
      · subst hlm
        refine .inr fun capture hc => hd capture ?_
        rwa [State.setDetector, State.updLane, upd_get_same] at hc
      · exact .inl (by rw [State.setDetector, State.updLane, upd_get_other hlm])
    | item tag f hf => exact .inl rfl
  | enrol m pos tag => exact .inl (by rw [enroll_eq])
  | activate e rest n i placed ho ht hk hp => exact .inl (by rw [placeHolder_lanes hp]; rfl)
  | activateWatch e rest n i placed ho ht hk hp =>
    exact .inl (by rw [State.appendWatch, updStation_lanes, placeHolder_lanes hp]; rfl)
  | fail n hr => exact .inl (by rw [(failing_parts s n).2.2.2.1])
  | _ => exact .inl rfl

theorem Work.filters {w : Worker} {s t : State} (h : Work w s t) (hs : s.Filters) : t.Filters := by
  intro ho l capture hd
  have ho' : s.control.op ≠ .setup := by rwa [h.frame.op] at ho
  rw [h.frame.laneConfig]
  obtain heq | hset := h.detector l
  · exact hs ho' l capture (heq ▸ hd)
  · obtain ⟨-, -, hfilter | ⟨before, hbefore⟩⟩ := hset capture hd
    · exact hfilter
    · exact hs ho' l before hbefore

theorem toNat_pos {w : Nat} {b : BitVec w} (h : b ≠ 0) : 0 < b.toNat := by
  refine Nat.pos_of_ne_zero fun h0 => h (BitVec.eq_of_toNat_eq ?_)
  simpa using h0

theorem Work.heldAt {w : Worker} {s t : State} (h : Work w s t) (hs : s.Filters) {k : Nat} {l : LaneId}
    (hl : s.HeldAt k l) : t.HeldAt k l := by
  obtain heq | hset := h.detector l
  · exact heldAt_congr hl h.frame.op.symm.trans (by rw [h.frame.position]) (by rw [h.frame.position]) heq
      (h.frame.laneConfig l) (by rw [h.frame.pins])
  · intro ho hr capture hd
    obtain ⟨rfl, hactive, -⟩ := hset capture hd
    have hfilter := h.filters hs (ho.trans_ne (by simp)) l _ hd
    refine ⟨?_, ?_⟩
    · rw [State.inputActive, h.frame.pins, h.frame.laneConfig]
      exact hactive
    · rw [h.frame.position, dist_self]
      exact Nat.add_pos_left (toNat_pos hfilter) k

/-! ### The layer of positions -/

/-- The entry lies ahead of the belt, or the belt is at it and it is due. -/
def State.Faces (s : State) (due : Bool) (e : Entry) : Prop :=
  ahead e.fire s.position.tracking = true ∨ (due = true ∧ e.fire = s.position.tracking)

/-- The offset of a station, and the decision point it gives, lie beyond the filter distance of its lane (R105). -/
def State.BeyondFilterAt (s : State) (c : StationConfig) : Prop :=
  s.lanes[c.lane].config.filter.toNat < c.offset.toNat
    ∧ (c.verdictDependent = true → s.lanes[c.lane].config.filter.toNat < s.lanes[c.lane].config.decision.toNat)

theorem beyondFilterAt_congr {s t : State} (h : ∀ l : LaneId, t.lanes[l].config = s.lanes[l].config) (c : StationConfig) :
    t.BeyondFilterAt c ↔ s.BeyondFilterAt c := by
  rw [State.BeyondFilterAt, State.BeyondFilterAt, h]

/-- So it is of every ENABLED station. -/
def State.BeyondFilter (s : State) : Prop :=
  s.control.op ≠ .setup → ∀ n : StationId, s.stations[n].runtime = .enabled → s.BeyondFilterAt s.stations[n].config

/-- Where the entries lie, with what it rests on; `due` says that the list still has an advance to take. -/
structure State.Ahead (due : Bool) (s : State) : Prop where
  config : s.ConfigSound
  running : s.running = false → s.control.op = .setup
  setup : s.control.op = .setup → s.list.entries = []
  detectors : s.control.op = .setup → ∀ l : LaneId, s.lanes[l].detector = .off
  unreached : s.control.op = .tracking → ∀ e ∈ s.list.entries, e.reached = false
  faces : s.control.op ≠ .setup → ∀ e ∈ s.list.entries, e.reached = false → s.Faces due e
  filters : s.Filters
  stations : s.BeyondFilter

theorem listAhead_iff {s : State} : s.ListAheadOfTheBelt ↔ s.Ahead false ∧ ∀ l, s.HeldAt 0 l := by
  constructor
  · intro h
    refine ⟨⟨h.config, h.running, h.setup, h.detectors, fun ho e he => (h.tracking ho e he).2, fun ho e he hr => ?_,
      h.filters, h.stations⟩, fun l ho hr => h.captures ho hr l⟩
    cases hop : s.control.op with
    | setup => exact absurd hop ho
    | tracking => exact .inl (h.tracking hop e he).1
    | halted => exact .inl (h.halted hop e he hr)
  · rintro ⟨h, hheld⟩
    have hahead (ho : s.control.op ≠ .setup) (e : Entry) (he : e ∈ s.list.entries) (hr : e.reached = false) :
        ahead e.fire s.position.tracking = true := (h.faces ho e he hr).resolve_right (by simp)
    exact ⟨h.config, h.running, h.setup, h.detectors,
      fun ho e he => ⟨hahead (ho.trans_ne (by simp)) e he (h.unreached ho e he), h.unreached ho e he⟩,
      fun ho e he hr => hahead (ho.trans_ne (by simp)) e he hr, h.filters, fun ho hr l => hheld l ho hr, h.stations⟩

theorem State.Faces.mono {s : State} {e : Entry} (h : s.Faces false e) (due : Bool) : s.Faces due e :=
  .inl (h.resolve_right (by simp))

theorem State.Ahead.mono {s : State} (h : s.Ahead false) (due : Bool) : s.Ahead due :=
  { h with faces := fun ho e he hr => (h.faces ho e he hr).mono due }

/-- In a part that has left SETUP, detection runs where it is not blanked. -/
theorem unblanked {s : State} (hb : s.blanked = false) (ho : s.control.op ≠ .setup) :
    s.control.op = .tracking ∧ s.reverse = 0 := by
  unfold State.blanked at hb
  split at hb
  next h => exact absurd h ho
  next h => exact ⟨h, by simpa using hb⟩
  next h => cases hb

/-- What an enrolment finds: TRACKING without re-travel, and the edge at most the filter distance behind the belt. -/
theorem State.AcceptsAt.close {due : Bool} {s : State} {w : Worker} {l : LaneId} {pos : Pos} (h : s.AcceptsAt w l pos)
    (hs : s.Ahead due) (hb : s.blanked = false) (hheld : w = .advance → ∀ l, s.HeldAt 1 l) :
    s.control.op = .tracking ∧ (s.position.tracking - pos).toNat ≤ s.lanes[l].config.filter.toNat := by
  have ho : s.control.op ≠ .setup := fun h' => h.on (hs.detectors h' l)
  obtain ⟨htracking, hr⟩ := unblanked hb ho
  refine ⟨htracking, ?_⟩
  obtain ⟨hw, hd⟩ | ⟨hfilter, rfl, -⟩ := h
  · exact Nat.le_of_lt_succ (hheld hw l htracking hr pos hd).2
  · rw [dist_self]
    exact Nat.zero_le _

/-- The distances of the planned entries of an item (R69): beyond the filter distance of its lane. -/
theorem plan_beyond {due : Bool} {s : State} (hs : s.Ahead due) (ho : s.control.op ≠ .setup) {l : LaneId} {leading : Pos}
    {tag : Tag} {x : Entry} (hx : x ∈ s.plan l leading tag) :
    ∃ d : Distance, x.fire = leading + wide d ∧ s.lanes[l].config.filter.toNat < d.toNat ∧ x.reached = false := by
  obtain rfl | ⟨hpoint, rfl⟩ | ⟨n, hn, rfl, rfl⟩ := mem_plan hx
  · exact ⟨s.lanes[l].config.exit, rfl, (hs.config.lanes l).filter, rfl⟩
  · simp only [State.hasDecisionPoint, List.any_eq_true] at hpoint
    obtain ⟨n, hn, hdependent⟩ := hpoint
    obtain ⟨henabled, rfl⟩ := mem_laneStations.1 hn
    exact ⟨_, rfl, (hs.stations ho n henabled).2 hdependent, rfl⟩
  · exact ⟨_, rfl, (hs.stations ho n hn).1, rfl⟩

/-- What a work makes of the list: entries leave, and others lose their mark; entries at the belt are marked as reached;
an item is enrolled; an ON entry gives way to the holder it places; or an item's OFF entries are re-keyed. -/
inductive Reshaped (w : Worker) (s : State) : List Entry → Prop
  | pruned (es : List Entry) (f : Entry → Entry) (hsub : es.Sublist s.list.entries) (hf : ∀ e, f e = e ∨ f e = e.unmark) :
      Reshaped w s (es.map f)
  | marked (ho : s.control.op = .halted) : Reshaped w s s.markReached.list.entries
  | enrolled (l : LaneId) (pos : Pos) (tag : Tag) (hb : s.blanked = false) (hpos : s.AcceptsAt w l pos)
      (hq : s.judgeAdmission l = .admitted tag) : Reshaped w s (s.enroll l pos tag).list.entries
  | placed (e : Entry) (rest : List Entry) (n : StationId) (pos : Pos) (r : Bool) (i : Item)
      (ho : s.control.op = .tracking) (ht : s.Takes s.due e rest)
      (hpos : (s.stations[n].config.mode = .count ∧ pos = e.fire + s.stations[n].config.pulseWord.zeroExtend 32)
        ∨ (s.stations[n].config.mode = .item ∧ itemOff s.stations[n].config e.fire i.trailing = some (pos, r))) :
      Reshaped w s (insertEntry s.list.firingPoint (Entry.make (.off n r) pos i.tag) rest)
  | rekeyed (tag : Tag) (t : Pos) (hb : s.blanked = false) : Reshaped w s (s.rekey tag t).list.entries

theorem Work.reshaped {w : Worker} {s t : State} (h : Work w s t) : Reshaped w s t.list.entries := by
  have hsub {es : List Entry} (h : es.Sublist s.list.entries) : Reshaped w s es := by
    have hp := Reshaped.pruned (w := w) es id h fun _ => .inl rfl
    rwa [List.map_id] at hp
  have hfree (tag : Tag) {es : List Entry} (h : es.Sublist s.list.entries) :
      Reshaped w s (es.map fun e => if e.tag = tag then e.unmark else e) := by
    refine .pruned es _ h fun e => ?_
    split
    · exact .inr rfl
    · exact .inl rfl
  have hactivate {e : Entry} {rest : List Entry} {n : StationId} {i : Item} {placed : State} (ho : s.control.op = .tracking)
      (ht : s.Takes s.due e rest) (hp : (s.left rest).placeHolder n e.fire i = some placed) :
      Reshaped w s placed.list.entries := by
    obtain ⟨pos, r, rfl, hpos⟩ | rfl := placeHolder_cases hp
    · exact .placed e rest n pos r i ho ht hpos
    · exact hsub (takeFirst_sublist ht)
  cases h with
  | note h =>
    rw [h.parts.1]
    exact hsub (.refl _)
  | enrol l pos tag hw hb hpos hq => exact .enrolled l pos tag hb hpos hq
  | request c => exact hsub (.refl _)
  | drop p e rest ht => exact hsub (takeFirst_sublist ht)
  | activate e rest n i placed ho ht hk hp => exact hactivate ho ht hp
  | activateWatch e rest n i placed ho ht hk hp => exact (hactivate ho ht hp :)
  | retire p e rest ht => exact hfree e.tag (takeFirst_sublist ht)
  | cancel tag => exact hfree tag List.filter_sublist
  | rekey tag t hb => exact .rekeyed tag t hb
  | stations v hv => exact hsub (.refl _)
  | withdraw n hr => exact hsub List.filter_sublist
  | fail n hr =>
    rw [(failing_parts s n).1]
    exact hsub List.filter_sublist
  | overtake n new => exact hsub (.refl _)
  | mark ho => exact .marked ho

/-- A list of entries that leave, and others that lose their mark. -/
theorem mem_pruned {es : List Entry} {f : Entry → Entry} (hf : ∀ e, f e = e ∨ f e = e.unmark) {x : Entry}
    (hx : x ∈ es.map f) : ∃ e ∈ es, x = f e ∧ x.fire = e.fire ∧ x.tag = e.tag ∧ x.reached = e.reached
      ∧ x.isOff = e.isOff := by
  obtain ⟨e, he, rfl⟩ := List.mem_map.1 hx
  refine ⟨e, he, rfl, ?_⟩
  obtain h | h := hf e
  · rw [h]
    exact ⟨rfl, rfl, rfl, rfl⟩
  · rw [h]
    exact ⟨unmark_fire e, unmark_tag e, unmark_reached e, unmark_isOff e⟩

/-- What a work leaves in the list: entries that were there, perhaps without their mark; entries marked as reached; and
new or moved ones, in TRACKING, ahead of the belt, and not beyond where an entry may stand. -/
theorem Reshaped.entries {due : Bool} {w : Worker} {s : State} {es : List Entry} (h : Reshaped w s es) (hs : s.Ahead due)
    (hheld : w = .advance → ∀ l, s.HeldAt 1 l) {x : Entry} (hx : x ∈ es) :
    (∃ e ∈ s.list.entries, x.fire = e.fire ∧ x.reached = e.reached)
      ∨ (s.control.op = .tracking ∧ x.reached = false ∧ ahead x.fire s.position.tracking = true
          ∧ ((x.fire - s.position.tracking).toNat < 2 ^ 24 ∨ ∃ e ∈ s.list.entries, behind x.fire e.fire = true))
      ∨ (s.control.op = .halted ∧ x.reached = true ∧ ∃ e ∈ s.list.entries, x.fire = e.fire) := by
  cases h with
  | pruned es f hsub hf =>
    obtain ⟨e, he, -, hfire, -, hreached, -⟩ := mem_pruned hf hx
    exact .inl ⟨e, hsub.subset he, hfire, hreached⟩
  | marked ho =>
    obtain ⟨e, he, rfl⟩ := List.mem_map.1 hx
    split
    · exact .inr (.inr ⟨ho, rfl, e, he, rfl⟩)
    · exact .inl ⟨e, he, rfl, rfl⟩
  | enrolled l pos tag hb hpos hq =>
    obtain hplan | hx := List.mem_append.1 ((enroll_perm s l pos tag).mem_iff.1 hx)
    · obtain ⟨ho, hclose⟩ := hpos.close hs hb hheld
      obtain ⟨d, hfire, hd, hreached⟩ := plan_beyond hs (ho.trans_ne (by simp)) hplan
      rw [hfire]
      refine .inr (.inl ⟨ho, hreached, ahead_from_leading (lt_of_le_of_lt hclose hd), .inl ?_⟩)
      have := d.isLt
      rw [dist_from_leading (by omega)]
      omega
    · exact .inl ⟨x, hx, rfl, rfl⟩
  | placed e rest n pos r i ho ht hpos =>
    obtain rfl | hx := insertEntry_mem.1 hx
    · obtain ⟨before, after, -, -, hdue, -⟩ := takeFirst_some ht
      have hfire : e.fire = s.position.tracking := by simpa [State.due] using hdue
      obtain ⟨h1, h2⟩ := holder_dist hs.config hpos
      rw [hfire] at h1 h2
      exact .inr (.inl ⟨ho, rfl, ahead_iff.2 ⟨h1, h2.trans (by decide)⟩, .inl (h2.trans (by decide))⟩)
    · exact .inl ⟨x, mem_of_mem_rest ht hx, rfl, rfl⟩
  | rekeyed tag t hb =>
    obtain hx | ⟨e, he, -, rfl | ⟨c, rfl, hc, hbehind⟩⟩ := mem_rekey hx
    · exact .inl ⟨x, hx, rfl, rfl⟩
    · exact .inl ⟨e, he, unmark_fire e, unmark_reached e⟩
    · have ho : s.control.op ≠ .setup := fun h => by
        rw [hs.setup h] at he
        cases he
      have htracking := (unblanked hb ho).1
      exact .inr (.inl ⟨htracking, (unmark_reached e).trans (hs.unreached htracking e he), hasReached_false hc,
        .inr ⟨e, he, hbehind⟩⟩)

/-- No work makes a station ENABLED. -/
theorem Work.enabled_of {w : Worker} {s t : State} (h : Work w s t) {n : StationId}
    (hn : t.stations[n].runtime = .enabled) : s.stations[n].runtime = .enabled := by
  have hwithdraw (m : StationId) {r : Runtime} (hr : r ≠ .enabled) (hn : (s.withdraw m r).stations[n].runtime = .enabled) :
      s.stations[n].runtime = .enabled := by
    change (upd s.stations m _)[n].runtime = .enabled at hn
    rw [upd_get] at hn
    split at hn
    · exact absurd hn hr
    · exact hn
  cases h with
  | note h => rwa [h.parts.2.2.1] at hn
  | enrol l pos tag =>
    rw [enroll_eq] at hn
    exact hn
  | activate e rest m i placed ho ht hk hp => exact (placeHolder_watches hp n).2.symm.trans hn
  | activateWatch e rest m i placed ho ht hk hp =>
    rw [State.appendWatch, State.updStation, upd_get_proj m n Station.runtime rfl] at hn
    exact (placeHolder_watches hp n).2.symm.trans hn
  | stations v hv => exact (hv n).2.1.symm.trans hn
  | withdraw m hr => exact hwithdraw m (by simp) hn
  | fail m hr =>
    rw [(failing_parts s m).2.1] at hn
    exact hwithdraw m (by simp) hn
  | overtake m new hr =>
    rw [State.updStation, upd_get_proj m n Station.runtime rfl] at hn
    exact hn
  | _ => exact hn

theorem Work.ahead {due : Bool} {w : Worker} {s t : State} (h : Work w s t) (hs : s.Ahead due)
    (hheld : w = .advance → ∀ l, s.HeldAt 1 l) : t.Ahead due := by
  have hf := h.frame
  have hentries {x : Entry} (hx : x ∈ t.list.entries) := h.reshaped.entries hs hheld hx
  refine ⟨kept_configSound.work s t w h hs.config, ?_, fun ho => ?_, fun ho l => ?_, fun ho x hx => ?_,
    fun ho x hx hr => ?_, h.filters hs.filters, fun ho n hn => ?_⟩
  · rw [running_congr hf.power hf.pins, hf.op]
    exact hs.running
  · rw [hf.op] at ho
    refine List.eq_nil_iff_forall_not_mem.2 fun x hx => ?_
    obtain ⟨e, he, -⟩ | ⟨ht, -⟩ | ⟨hh, -⟩ := hentries hx
    · rw [hs.setup ho] at he
      cases he
    · exact absurd (ho.symm.trans ht) (by simp)
    · exact absurd (ho.symm.trans hh) (by simp)
  · rw [hf.op] at ho
    by_contra hon
    have hoff := hs.detectors ho l
    cases h with
    | note h =>
      cases h with
      | event r =>
        rw [arrive_eq] at hon
        exact hon hoff
      | lane m f hlane =>
        rw [State.updLane, upd_get_proj m l Lane.detector (hlane _).2] at hon
        exact hon hoff
      | detector m d hon' hd => exact hon' (hs.detectors ho m)
      | item tag f hf => exact hon hoff
    | enrol m pos tag hw hb hpos => exact hpos.on (hs.detectors ho m)
    | activate e rest n i placed ho' => exact absurd (ho.symm.trans ho') (by simp)
    | activateWatch e rest n i placed ho' => exact absurd (ho.symm.trans ho') (by simp)
    | fail n hr =>
      rw [(failing_parts s n).2.2.2.1] at hon
      exact hon hoff
    | _ => exact hon hoff
  · rw [hf.op] at ho
    obtain ⟨e, he, -, hr⟩ | ⟨-, hr, -, -⟩ | ⟨hh, -⟩ := hentries hx
    · exact hr.trans (hs.unreached ho e he)
    · exact hr
    · exact absurd (ho.symm.trans hh) (by simp)
  · rw [hf.op] at ho
    rw [State.Faces, hf.position]
    obtain ⟨e, he, hfire, hr'⟩ | ⟨-, -, hahead, -⟩ | ⟨-, hr', -⟩ := hentries hx
    · rw [hfire]
      exact hs.faces ho e he (hr'.symm.trans hr)
    · exact .inl hahead
    · rw [hr'] at hr
      cases hr
  · rw [hf.op] at ho
    rw [hf.stationConfig, beyondFilterAt_congr hf.laneConfig]
    exact hs.stations ho n (h.enabled_of hn)

end Sys2Proof.Machine
end

section
/-! PROOFS. The belt and the list (O60), second part: the layer of the list order and the layer of the live items. -/

namespace Sys2Proof.Machine

/-! ### List order -/

theorem staysBefore_iff {p : Pos} {e x : Entry} : staysBefore p e x = true ↔ x.NotAfter p e := by
  simp [staysBefore, Entry.NotAfter]

theorem notAfter_of_not {p : Pos} {e x : Entry} (h : ¬ x.NotAfter p e) : e.NotAfter p x := by
  unfold Entry.NotAfter at h ⊢
  obtain ⟨hlt, hrank⟩ := not_or.1 h
  obtain hlt' | heq := Nat.lt_or_eq_of_le (not_lt.1 hlt)
  · exact .inl hlt'
  · have hfire := dist_eq heq
    refine .inr ⟨hfire, ?_⟩
    have hnot : ¬ x.kind.rank ≤ e.kind.rank := fun h => hrank ⟨hfire.symm, h⟩
    omega

theorem notAfter_trans {p : Pos} {x y z : Entry} (h : x.NotAfter p y) (h' : y.NotAfter p z) : x.NotAfter p z := by
  unfold Entry.NotAfter at *
  obtain hlt | ⟨heq, hrank⟩ := h
  · obtain hlt' | ⟨heq', -⟩ := h'
    · exact .inl (hlt.trans hlt')
    · exact .inl (heq' ▸ hlt)
  · obtain hlt' | ⟨heq', hrank'⟩ := h'
    · exact .inl (heq ▸ hlt')
    · exact .inr ⟨heq.trans heq', hrank.trans hrank'⟩

theorem notAfter_dist {p : Pos} {x y : Entry} (h : x.NotAfter p y) : (x.fire - p).toNat ≤ (y.fire - p).toNat := by
  obtain hlt | ⟨heq, -⟩ := h
  · exact le_of_lt hlt
  · rw [heq]

theorem notAfter_congr {p : Pos} {x y x' y' : Entry} (h : x.NotAfter p y) (hx : x'.fire = x.fire) (hy : y'.fire = y.fire)
    (hkx : x'.kind.rank = x.kind.rank) (hky : y'.kind.rank = y.kind.rank) : x'.NotAfter p y' := by
  unfold Entry.NotAfter at *
  rwa [hx, hy, hkx, hky]

/-- Placing keeps list order (R65). -/
theorem insertEntry_order {p : Pos} {e : Entry} {es : List Entry} (h : es.Pairwise (Entry.NotAfter p)) :
    (insertEntry p e es).Pairwise (Entry.NotAfter p) := by
  induction es with
  | nil => exact List.pairwise_singleton ..
  | cons x rest ih =>
    obtain ⟨hx, hrest⟩ := List.pairwise_cons.1 h
    simp only [insertEntry]
    split
    next hbefore =>
      refine List.pairwise_cons.2 ⟨fun y hy => ?_, ih hrest⟩
      obtain rfl | hy := insertEntry_mem.1 hy
      · exact staysBefore_iff.1 hbefore
      · exact hx y hy
    next hafter =>
      have hex : e.NotAfter p x := notAfter_of_not fun h => hafter (staysBefore_iff.2 h)
      refine List.pairwise_cons.2 ⟨fun y hy => ?_, h⟩
      obtain rfl | hy := List.mem_cons.1 hy
      · exact hex
      · exact notAfter_trans hex (hx y hy)

theorem foldl_insert_order {p : Pos} (new : List Entry) {es : List Entry} (h : es.Pairwise (Entry.NotAfter p)) :
    (new.foldl (fun es e => insertEntry p e es) es).Pairwise (Entry.NotAfter p) := by
  induction new generalizing es with
  | nil => exact h
  | cons e rest ih => exact ih (insertEntry_order h)

theorem unmark_rank (e : Entry) : e.unmark.kind.rank = e.kind.rank := by
  cases e with | mk k => cases k <;> rfl

/-- From a firing point that comes first, list order is kept when the firing point moves up to one that all entries lie
at or beyond. -/
theorem order_shift {p q : Pos} {es : List Entry} (h : es.Pairwise (Entry.NotAfter p))
    (hle : ∀ e ∈ es, (q - p).toNat ≤ (e.fire - p).toNat) : es.Pairwise (Entry.NotAfter q) := by
  refine h.imp_of_mem fun hx hy hxy => ?_
  have hdx := dist_sub (hle _ hx)
  have hdy := dist_sub (hle _ hy)
  unfold Entry.NotAfter at *
  obtain hlt | heq := hxy
  · left
    have := hle _ hx
    omega
  · exact .inr heq

/-- The list in list order, with what it rests on; `moving` says that the firing point still follows an advance. -/
structure State.Ordered (due moving : Bool) (s : State) : Prop where
  order : s.list.entries.Pairwise (Entry.NotAfter s.list.firingPoint)
  near : ∀ e ∈ s.list.entries, (e.fire - s.list.firingPoint).toNat < 2 ^ 31
  tracking : s.control.op = .tracking →
    s.position.tracking = if moving then s.list.firingPoint + 1 else s.list.firingPoint
  halted : s.control.op = .halted → ∀ e ∈ s.list.entries, e.reached = false →
    (s.position.tracking - s.list.firingPoint).toNat < (e.fire - s.list.firingPoint).toNat
      ∨ (due = true ∧ e.fire = s.position.tracking)

/-- In TRACKING the belt is at most one count past the firing point. -/
theorem State.Ordered.belt {due moving : Bool} {s : State} (h : s.Ordered due moving) (ho : s.control.op = .tracking) :
    (s.position.tracking - s.list.firingPoint).toNat ≤ 1 := by
  rw [h.tracking ho]
  split
  · rw [dist_offset]
    decide
  · rw [dist_self]
    exact Nat.zero_le _

/-- Outside SETUP an entry that is not reached lies at or beyond the belt. -/
theorem State.Ordered.beyond {due moving : Bool} {s : State} (h : s.Ordered due moving) (ha : s.Ahead due)
    (ho : s.control.op ≠ .setup) {e : Entry} (he : e ∈ s.list.entries) (hr : e.reached = false) :
    (s.position.tracking - s.list.firingPoint).toNat ≤ (e.fire - s.list.firingPoint).toNat := by
  cases hop : s.control.op with
  | setup => exact absurd hop ho
  | tracking =>
    have hbelt := h.belt hop
    obtain hahead | ⟨-, heq⟩ := ha.faces ho e he hr
    · rw [ahead_iff] at hahead
      rw [dist_add (p := e.fire) (q := s.position.tracking) (by omega)]
      exact Nat.le_add_left _ _
    · rw [heq]
  | halted =>
    obtain hlt | ⟨-, heq⟩ := h.halted hop e he hr
    · exact le_of_lt hlt
    · rw [heq]

theorem Reshaped.order {w : Worker} {s : State} {es : List Entry} (h : Reshaped w s es)
    (ho : s.list.entries.Pairwise (Entry.NotAfter s.list.firingPoint)) :
    es.Pairwise (Entry.NotAfter s.list.firingPoint) := by
  cases h with
  | pruned es f hsub hf =>
    refine (ho.sublist hsub).map f fun x y hxy => ?_
    have hkeep (e : Entry) : (f e).fire = e.fire ∧ (f e).kind.rank = e.kind.rank := by
      obtain h | h := hf e
      · rw [h]
        exact ⟨rfl, rfl⟩
      · rw [h]
        exact ⟨unmark_fire e, unmark_rank e⟩
    exact notAfter_congr hxy (hkeep x).1 (hkeep y).1 (hkeep x).2 (hkeep y).2
  | marked hop =>
    refine ho.map _ fun x y hxy => ?_
    refine notAfter_congr hxy ?_ ?_ ?_ ?_
    all_goals split <;> rfl
  | enrolled l pos tag =>
    rw [enroll_eq]
    exact foldl_insert_order _ ho
  | placed e rest n pos r i hop ht => exact insertEntry_order (ho.sublist (takeFirst_sublist ht))
  | rekeyed tag t =>
    refine foldl_insert_order _ (ho.filterMap _ fun x y hxy x' hx y' hy => ?_)
    have hkeep {e e' : Entry} (h : s.rekeyKept tag t e = some e') : e'.fire = e.fire ∧ e'.kind.rank = e.kind.rank := by
      obtain ⟨hkept, -⟩ | ⟨-, hkept, -⟩ | ⟨-, hkept, -⟩ | ⟨-, hkept, -⟩ := rekey_cases s tag t e
      all_goals rw [hkept] at h
      · obtain rfl := Option.some.inj h
        exact ⟨rfl, rfl⟩
      · obtain rfl := Option.some.inj h
        exact ⟨unmark_fire e, unmark_rank e⟩
      · cases h
      · cases h
    exact notAfter_congr hxy (hkeep hx).1 (hkeep hy).1 (hkeep hx).2 (hkeep hy).2

theorem Work.ordered {due moving : Bool} {w : Worker} {s t : State} (h : Work w s t) (ha : s.Ahead due)
    (hs : s.Ordered due moving) (hheld : w = .advance → ∀ l, s.HeldAt 1 l) : t.Ordered due moving := by
  have hf := h.frame
  have hentries {x : Entry} (hx : x ∈ t.list.entries) := h.reshaped.entries ha hheld hx
  refine ⟨?_, fun x hx => ?_, ?_, fun ho x hx hr => ?_⟩
  · rw [hf.firingPoint]
    exact h.reshaped.order hs.order
  · rw [hf.firingPoint]
    obtain ⟨e, he, hfire, -⟩ | ⟨ho, -, hahead, hclose⟩ | ⟨-, -, e, he, hfire⟩ := hentries hx
    · rw [hfire]
      exact hs.near e he
    · have hbelt := hs.belt ho
      rw [ahead_iff] at hahead
      have hsum := dist_add (p := x.fire) (q := s.position.tracking) (r := s.list.firingPoint) (by omega)
      obtain hclose | ⟨e, he, hbehind⟩ := hclose
      · omega
      · by_contra hfar
        rw [behind_iff] at hbehind
        have hnear := hs.near e he
        have hbeyond := hs.beyond ha (ho.trans_ne (by simp)) he (ha.unreached ho e he)
        have hsub := dist_sub (p := x.fire) (q := e.fire) (r := s.list.firingPoint) (by omega)
        omega
    · rw [hfire]
      exact hs.near e he
  · rw [hf.op, hf.position, hf.firingPoint]
    exact hs.tracking
  · rw [hf.op] at ho
    rw [hf.position, hf.firingPoint]
    obtain ⟨e, he, hfire, hr'⟩ | ⟨ht, -⟩ | ⟨-, hr', -⟩ := hentries hx
    · rw [hfire]
      exact hs.halted ho e he (hr'.symm.trans hr)
    · exact absurd (ho.symm.trans ht) (by simp)
    · rw [hr'] at hr
      cases hr

/-! ### Live items -/

/-- The offset of a station, and the decision point it gives, lie before the exit of its lane (R105). -/
def State.BeforeExitAt (s : State) (c : StationConfig) : Prop :=
  c.offset.toNat < s.lanes[c.lane].config.exit.toNat
    ∧ (c.verdictDependent = true → s.lanes[c.lane].config.decision.toNat < s.lanes[c.lane].config.exit.toNat)

theorem beforeExitAt_congr {s t : State} (h : ∀ l : LaneId, t.lanes[l].config = s.lanes[l].config) (c : StationConfig) :
    t.BeforeExitAt c ↔ s.BeforeExitAt c := by
  rw [State.BeforeExitAt, State.BeforeExitAt, h]

def State.BeforeExit (s : State) : Prop :=
  s.control.op ≠ .setup → ∀ n : StationId, s.stations[n].runtime = .enabled → s.BeforeExitAt s.stations[n].config

/-- A RETIRE entry stands behind the other planned entries of its item. -/
def Entry.Last (x y : Entry) : Prop := x.kind = .retire → y.tag = x.tag → y.isOff = true

/-- Every RETIRE, DEADLINE and ON entry names a live item, with what it rests on beside the list order. -/
structure State.Named (s : State) : Prop where
  live : ∀ e ∈ s.list.entries, e.isOff = false → e.tag ∈ s.queue.items.map Item.tag
  reached : s.list.entries.Pairwise (fun x y => x.reached = false → y.reached = false)
  last : s.list.entries.Pairwise Entry.Last
  stations : s.BeforeExit

theorem entriesNameLiveItems_iff {s : State} :
    s.EntriesNameLiveItems ↔ s.ListMatchesQueue ∧ s.ListInOrder ∧ s.Named := by
  have hmem (e : Entry) : (∃ i ∈ s.queue.items, i.tag = e.tag) ↔ e.tag ∈ s.queue.items.map Item.tag := by
    simp [List.mem_map]
  constructor
  · intro h
    exact ⟨h.queue, h.list, fun e he hoff => (hmem e).1 (h.live e he hoff), h.reached, h.last, h.stations⟩
  · rintro ⟨hqueue, hlist, h⟩
    exact ⟨hqueue, hlist, fun e he hoff => (hmem e).2 (h.live e he hoff), h.reached, h.last, h.stations⟩

/-- Placing keeps a relation between the entries, when each entry that may come to stand before or behind the placed one
has it with that one. -/
theorem insertEntry_pairwise {R : Entry → Entry → Prop} {p : Pos} {e : Entry} {es : List Entry} (h : es.Pairwise R)
    (hbefore : ∀ x ∈ es, x.NotAfter p e → R x e) (hafter : ∀ x ∈ es, R e x) : (insertEntry p e es).Pairwise R := by
  induction es with
  | nil => exact List.pairwise_singleton ..
  | cons x rest ih =>
    obtain ⟨hx, hrest⟩ := List.pairwise_cons.1 h
    simp only [insertEntry]
    split
    next hstays =>
      refine List.pairwise_cons.2 ⟨fun y hy => ?_, ih hrest (fun y hy => hbefore y (List.mem_cons_of_mem x hy))
        fun y hy => hafter y (List.mem_cons_of_mem x hy)⟩
      obtain rfl | hy := insertEntry_mem.1 hy
      · exact hbefore x List.mem_cons_self (staysBefore_iff.1 hstays)
      · exact hx y hy
    next => exact List.pairwise_cons.2 ⟨hafter, h⟩

/-- An item's other planned entries are placed before its RETIRE entry. -/
theorem foldl_insert_last {p : Pos} {tag : Tag} {bound : Nat} (new : List Entry)
    (hnew : ∀ e ∈ new, e.kind ≠ .retire ∧ e.tag = tag ∧ (e.fire - p).toNat < bound) {es : List Entry}
    (h : es.Pairwise Entry.Last) (hes : ∀ x ∈ es, x.kind = .retire → x.tag = tag → bound ≤ (x.fire - p).toNat) :
    (new.foldl (fun es e => insertEntry p e es) es).Pairwise Entry.Last := by
  induction new generalizing es with
  | nil => exact h
  | cons e rest ih =>
    obtain ⟨hkind, htag, hdist⟩ := hnew e List.mem_cons_self
    refine ih (fun x hx => hnew x (List.mem_cons_of_mem e hx)) ?_ fun x hx hk ht => ?_
    · refine insertEntry_pairwise h (fun x hx hxe hk ht => ?_) fun x _ hk => absurd hk hkind
      have hle := notAfter_dist hxe
      have hfar := hes x hx hk (ht.symm.trans htag)
      omega
    · obtain rfl | hx := insertEntry_mem.1 hx
      · exact absurd hk hkind
      · exact hes x hx hk ht

/-- The planned entries of an item beside its RETIRE entry. -/
def State.planBefore (s : State) (l : LaneId) (leading : Pos) (tag : Tag) : List Entry :=
  (if s.hasDecisionPoint l then [Entry.make .deadline (leading + wide s.lanes[l].config.decision) tag] else [])
    ++ (s.laneStations l).map (fun n => Entry.make (.on n) (leading + wide s.stations[n].config.offset) tag)

theorem plan_eq (s : State) (l : LaneId) (leading : Pos) (tag : Tag) :
    s.plan l leading tag = Entry.make .retire (leading + wide s.lanes[l].config.exit) tag :: s.planBefore l leading tag := by
  rw [State.plan, List.append_assoc]
  rfl

/-- They lie before the exit distance and beyond the filter distance (R69, R105). -/
theorem mem_planBefore {due : Bool} {s : State} (ha : s.Ahead due) (hexit : s.BeforeExit) (ho : s.control.op ≠ .setup)
    {l : LaneId} {leading : Pos} {tag : Tag} {x : Entry} (hx : x ∈ s.planBefore l leading tag) :
    x.kind ≠ .retire ∧ x.tag = tag ∧ ∃ d : Distance, x.fire = leading + wide d
      ∧ s.lanes[l].config.filter.toNat < d.toNat ∧ d.toNat < s.lanes[l].config.exit.toNat := by
  obtain hdeadline | hon := List.mem_append.1 hx
  · split at hdeadline
    next hpoint =>
      obtain rfl := List.mem_singleton.1 hdeadline
      simp only [State.hasDecisionPoint, List.any_eq_true] at hpoint
      obtain ⟨n, hn, hdependent⟩ := hpoint
      obtain ⟨henabled, rfl⟩ := mem_laneStations.1 hn
      exact ⟨by simp [Entry.make], rfl, _, rfl, (ha.stations ho n henabled).2 hdependent, (hexit ho n henabled).2 hdependent⟩
    next => cases hdeadline
  · obtain ⟨n, hn, rfl⟩ := List.mem_map.1 hon
    obtain ⟨henabled, rfl⟩ := mem_laneStations.1 hn
    exact ⟨by simp [Entry.make], rfl, _, rfl, (ha.stations ho n henabled).1, (hexit ho n henabled).1⟩

theorem unmark_kind_retire {e : Entry} : e.unmark.kind = .retire ↔ e.kind = .retire := by
  rw [← isRetire_iff, ← isRetire_iff, unmark_isRetire]

/-- What an entry that loses its mark keeps of the order of an item's entries. -/
theorem last_congr {x y x' y' : Entry} (h : x.Last y) (hkx : x'.kind = .retire ↔ x.kind = .retire) (htx : x'.tag = x.tag)
    (hty : y'.tag = y.tag) (hoy : y'.isOff = y.isOff) : x'.Last y' := by
  intro hk ht
  rw [hoy]
  exact h (hkx.1 hk) (by rw [← hty, ht, htx])

theorem last_of_not_retire {x y : Entry} (h : x.isRetire = false) : x.Last y := fun hk => by
  rw [isRetire_iff.2 hk] at h
  cases h

theorem last_of_isOff {x y : Entry} (h : y.isOff = true) : x.Last y := fun _ _ => h

theorem isOff_of_rekeysFor {e : Entry} {tag : Tag} (h : e.rekeysFor tag = true) : e.isOff = true := by
  obtain ⟨n, hk, -⟩ := rekeysFor_iff.1 h
  simp [Entry.isOff, hk]

theorem foldl_insert_offs {p : Pos} (new : List Entry) (hnew : ∀ e ∈ new, e.isOff = true) {es : List Entry}
    (h : es.Pairwise Entry.Last) : (new.foldl (fun es e => insertEntry p e es) es).Pairwise Entry.Last := by
  induction new generalizing es with
  | nil => exact h
  | cons e rest ih =>
    have hoff := hnew e List.mem_cons_self
    refine ih (fun x hx => hnew x (List.mem_cons_of_mem e hx)) (insertEntry_pairwise h ?_ ?_)
    · exact fun x _ _ => last_of_isOff hoff
    · exact fun x _ => last_of_not_retire (not_retire_of_isOff hoff)

theorem enrol_last {due moving : Bool} {w : Worker} {s : State} {l : LaneId} {pos : Pos} {tag : Tag} (ha : s.Ahead due)
    (ho : s.Ordered due moving) (hq : s.ListMatchesQueue) (hs : s.Named) (hb : s.blanked = false)
    (hpos : s.AcceptsAt w l pos) (hadm : s.judgeAdmission l = .admitted tag) (hheld : w = .advance → ∀ l, s.HeldAt 1 l) :
    (s.enroll l pos tag).list.entries.Pairwise Entry.Last := by
  obtain ⟨hop, hclose⟩ := hpos.close ha hb hheld
  have hne : s.control.op ≠ .setup := hop.trans_ne (by simp)
  obtain ⟨hroom, -, rfl⟩ := judgeAdmission_admitted hadm
  obtain ⟨-, -, -, hfree⟩ := giveTag_spec hroom hq.tags.next
  have hoff (x : Entry) (hx : x ∈ s.list.entries) (ht : x.tag = s.giveTag) : x.isOff = true := by
    by_contra hon
    have hlive := hs.live x hx (by simpa using hon)
    rw [ht] at hlive
    rw [holdsTag_iff.2 hlive] at hfree
    cases hfree
  have hbelt := ho.belt hop
  have hdist {d : Distance} (hd : s.lanes[l].config.filter.toNat < d.toNat) :
      (pos + wide d - s.list.firingPoint).toNat
        = d.toNat - (s.position.tracking - pos).toNat + (s.position.tracking - s.list.firingPoint).toNat := by
    have hlt := d.isLt
    have hleading := dist_from_leading (here := s.position.tracking) (leading := pos) (d := d) (by omega)
    rw [dist_add (q := s.position.tracking) (by omega), hleading]
  rw [enroll_eq, plan_eq]
  dsimp only [List.foldl_cons]
  have hfilter := (ha.config.lanes l).filter
  refine foldl_insert_last (tag := s.giveTag)
    (bound := (pos + wide s.lanes[l].config.exit - s.list.firingPoint).toNat) _ (fun e he => ?_) ?_ fun x hx hk ht => ?_
  · obtain ⟨hkind, htag, d, hfire, hfar, hexit⟩ := mem_planBefore ha hs.stations hne he
    refine ⟨hkind, htag, ?_⟩
    rw [hfire, hdist hfar, hdist hfilter]
    omega
  · exact insertEntry_pairwise hs.last (fun x hx _ hk ht => absurd (hoff x hx (ht.symm)) (by simp [Entry.isOff, hk]))
      fun x hx _ ht => hoff x hx ht
  · obtain rfl | hx := insertEntry_mem.1 hx
    · exact le_refl _
    · have := hoff x hx ht
      simp [Entry.isOff, hk] at this

theorem Reshaped.last {due moving : Bool} {w : Worker} {s : State} {es : List Entry} (h : Reshaped w s es)
    (ha : s.Ahead due) (ho : s.Ordered due moving) (hq : s.ListMatchesQueue) (hs : s.Named)
    (hheld : w = .advance → ∀ l, s.HeldAt 1 l) : es.Pairwise Entry.Last := by
  cases h with
  | pruned es f hsub hf =>
    refine (hs.last.sublist hsub).map f fun x y hxy => ?_
    have hkeep (e : Entry) : ((f e).kind = .retire ↔ e.kind = .retire) ∧ (f e).tag = e.tag ∧ (f e).isOff = e.isOff := by
      obtain h | h := hf e
      · rw [h]
        exact ⟨Iff.rfl, rfl, rfl⟩
      · rw [h]
        exact ⟨unmark_kind_retire, unmark_tag e, unmark_isOff e⟩
    exact last_congr hxy (hkeep x).1 (hkeep x).2.1 (hkeep y).2.1 (hkeep y).2.2
  | marked hop =>
    refine hs.last.map _ fun x y hxy => ?_
    refine last_congr hxy ?_ ?_ ?_ ?_
    all_goals split <;> rfl
  | enrolled l pos tag hb hpos hadm => exact enrol_last ha ho hq hs hb hpos hadm hheld
  | placed e rest n pos r i hop ht =>
    refine insertEntry_pairwise (hs.last.sublist (takeFirst_sublist ht)) ?_ ?_
    · exact fun x _ _ => last_of_isOff rfl
    · exact fun x _ => last_of_not_retire rfl
  | rekeyed tag t =>
    refine foldl_insert_offs _ (fun e he => ?_) (hs.last.filterMap _ fun x y hxy x' hx y' hy => ?_)
    · obtain ⟨x, -, hx⟩ := List.mem_filterMap.1 he
      obtain ⟨-, hmoved⟩ | ⟨-, -, hmoved⟩ | ⟨-, -, hmoved⟩ | ⟨hfor, -, c, hmoved, -⟩ := rekey_cases s tag t x
      all_goals rw [hmoved] at hx
      · cases hx
      · cases hx
      · cases hx
      · obtain rfl := Option.some.inj hx
        exact (unmark_isOff x).trans (isOff_of_rekeysFor hfor)
    · have hkeep {e e' : Entry} (h : s.rekeyKept tag t e = some e') :
          (e'.kind = .retire ↔ e.kind = .retire) ∧ e'.tag = e.tag ∧ e'.isOff = e.isOff := by
        obtain ⟨hkept, -⟩ | ⟨-, hkept, -⟩ | ⟨-, hkept, -⟩ | ⟨-, hkept, -⟩ := rekey_cases s tag t e
        all_goals rw [hkept] at h
        · obtain rfl := Option.some.inj h
          exact ⟨Iff.rfl, rfl, rfl⟩
        · obtain rfl := Option.some.inj h
          exact ⟨unmark_kind_retire, unmark_tag e, unmark_isOff e⟩
        · cases h
        · cases h
      exact last_congr hxy (hkeep hx).1 (hkeep hx).2.1 (hkeep hy).2.1 (hkeep hy).2.2

/-- In HALTED the reached entries stay before the others. -/
theorem Reshaped.reached {due moving : Bool} {w : Worker} {s : State} {es : List Entry} (h : Reshaped w s es)
    (ha : s.Ahead due) (ho : s.Ordered due moving) (hs : s.Named) (hop : s.control.op = .halted) :
    es.Pairwise (fun x y => x.reached = false → y.reached = false) := by
  have hblanked : s.blanked = true := by simp [State.blanked, hop]
  cases h with
  | pruned es f hsub hf =>
    refine (hs.reached.sublist hsub).map f fun x y hxy => ?_
    have hkeep (e : Entry) : (f e).reached = e.reached := by
      obtain h | h := hf e
      · rw [h]
      · rw [h, unmark_reached]
    rw [hkeep, hkeep]
    exact hxy
  | marked _ =>
    refine List.pairwise_map.2 ((hs.reached.and ho.order).imp_of_mem fun {x y} hx hy hxy => ?_)
    obtain ⟨hreached, hafter⟩ := hxy
    intro hx'
    split at hx'
    next => cases hx'
    next hnotdue =>
      have hdist := notAfter_dist hafter
      have hbeyond := ho.beyond ha (hop.trans_ne (by simp)) hx hx'
      split
      next hdue =>
        have hfire : y.fire = s.position.tracking := by simpa [State.due] using hdue
        rw [hfire] at hdist
        have heq := dist_eq (Nat.le_antisymm hdist hbeyond)
        exact absurd (by simpa [State.due] using heq) hnotdue
      next => exact hreached hx'
  | enrolled l pos tag hb => exact absurd (hblanked.symm.trans hb) (by simp)
  | placed e rest n pos r i hop' => exact absurd (hop.symm.trans hop') (by simp)
  | rekeyed tag t hb => exact absurd (hblanked.symm.trans hb) (by simp)

/-- An entry that fires, or is taken in the catch-up, is the first of the list. -/
theorem takes_first {due moving : Bool} {s : State} (ha : s.Ahead due) (ho : s.Ordered due moving) (hs : s.Named)
    {p : Entry → Bool} {e : Entry} {rest : List Entry} (ht : s.Takes p e rest)
    (hp : (s.control.op = .tracking ∧ p = s.due) ∨ p = Entry.reached) : s.list.entries = e :: rest := by
  obtain ⟨before, after, hentries, rfl, hpe, hnot⟩ := takeFirst_some ht
  cases before with
  | nil => exact hentries
  | cons x tail =>
    exfalso
    have hpx := hnot x List.mem_cons_self
    have hx : x ∈ s.list.entries := by simp [hentries]
    have he : e ∈ s.list.entries := by simp [hentries]
    have hpair {R : Entry → Entry → Prop} (h : s.list.entries.Pairwise R) : R x e := by
      rw [hentries, List.cons_append] at h
      exact (List.pairwise_cons.1 h).1 e (by simp)
    obtain ⟨hop, rfl⟩ | rfl := hp
    · have hdist := notAfter_dist (hpair ho.order)
      have hfire : e.fire = s.position.tracking := by simpa [State.due] using hpe
      have hbeyond := ho.beyond ha (hop.trans_ne (by simp)) hx (ha.unreached hop x hx)
      rw [hfire] at hdist
      have heq := dist_eq (Nat.le_antisymm hdist hbeyond)
      simp [State.due, heq] at hpx
    · have := hpair hs.reached hpx
      rw [this] at hpe
      cases hpe

theorem Work.live {due moving : Bool} {w : Worker} {s t : State} (h : Work w s t) (ha : s.Ahead due)
    (ho : s.Ordered due moving) (hs : s.Named) (x : Entry) (hx : x ∈ t.list.entries) (hoff : x.isOff = false) :
    x.tag ∈ t.queue.items.map Item.tag := by
  have hsame (hq : t.queue.items.map Item.tag = s.queue.items.map Item.tag)
      (hold : ∃ e ∈ s.list.entries, e.isOff = false ∧ e.tag = x.tag) : x.tag ∈ t.queue.items.map Item.tag := by
    obtain ⟨e, he, hoff', htag⟩ := hold
    rw [hq, ← htag]
    exact hs.live e he hoff'
  have hfree {u : State} {tag : Tag} (hq : u.queue = s.queue) (hx : x ∈ (u.freeItem tag).list.entries)
      (hu : ∀ e ∈ u.list.entries, e ∈ s.list.entries ∧ (e.isOff = false → e.tag ≠ tag)) :
      x.tag ∈ (u.freeItem tag).queue.items.map Item.tag := by
    obtain ⟨e, he, rfl⟩ := mem_freeItem hx
    obtain ⟨he, htag⟩ := hu e he
    have hkeep : (if e.tag = tag then e.unmark else e).tag = e.tag ∧ (if e.tag = tag then e.unmark else e).isOff = e.isOff := by
      split
      · exact ⟨unmark_tag e, unmark_isOff e⟩
      · exact ⟨rfl, rfl⟩
    rw [hkeep.2] at hoff
    rw [freeItem_tags, hkeep.1, hq]
    exact List.mem_filter.2 ⟨hs.live e he hoff, bne_iff_ne.2 (htag hoff)⟩
  have hwithdraw {n : StationId} {r : Runtime} (hx : x ∈ (s.withdraw n r).list.entries) :
      ∃ e ∈ s.list.entries, e.isOff = false ∧ e.tag = x.tag := ⟨x, (List.mem_filter.1 hx).1, hoff, rfl⟩
  have hactivate {e : Entry} {rest : List Entry} {n : StationId} {i : Item} {placed : State} (ht : s.Takes s.due e rest)
      (hp : (s.left rest).placeHolder n e.fire i = some placed) (hx : x ∈ placed.list.entries) :
      ∃ e ∈ s.list.entries, e.isOff = false ∧ e.tag = x.tag := by
    obtain hx | hoff' := mem_placeHolder hp hx
    · exact ⟨x, mem_of_mem_rest ht hx, hoff, rfl⟩
    · rw [hoff] at hoff'
      cases hoff'
  cases h with
  | note h => exact hsame h.items_tags ⟨x, by rwa [h.parts.1] at hx, hoff, rfl⟩
  | enrol l pos tag =>
    have hitems : (s.enroll l pos tag).queue.items.map Item.tag = s.queue.items.map Item.tag ++ [tag] := by
      rw [enroll_eq, List.map_append]
      rfl
    rw [hitems, List.mem_append]
    obtain hplan | hx := List.mem_append.1 ((enroll_perm s l pos tag).mem_iff.1 hx)
    · refine .inr (List.mem_singleton.2 ?_)
      obtain rfl | ⟨-, rfl⟩ | ⟨n, -, -, rfl⟩ := mem_plan hplan <;> rfl
    · exact .inl (hs.live x hx hoff)
  | request c => exact hsame rfl ⟨x, hx, hoff, rfl⟩
  | drop p e rest ht => exact hsame rfl ⟨x, mem_of_mem_rest ht hx, hoff, rfl⟩
  | activate e rest n i placed hop ht hk hp => exact hsame (by rw [placeHolder_queue hp]; rfl) (hactivate ht hp hx)
  | activateWatch e rest n i placed hop ht hk hp =>
    exact hsame (by rw [State.appendWatch, updStation_queue, placeHolder_queue hp]; rfl) (hactivate ht hp hx)
  | retire p e rest ht hp hk =>
    have hfirst := takes_first ha ho hs ht hp
    refine hfree (u := s.left rest) rfl hx fun y hy => ⟨mem_of_mem_rest ht hy, fun hyoff htag => ?_⟩
    have hlast := hs.last
    rw [hfirst] at hlast
    have hy' := (List.pairwise_cons.1 hlast).1 y hy (isRetire_iff.1 hk) htag
    rw [hyoff] at hy'
    cases hy'
  | cancel tag =>
    refine hfree (u := s.updEntries _) rfl hx fun y hy => ?_
    obtain ⟨hy, hplanned⟩ := List.mem_filter.1 hy
    refine ⟨hy, fun hyoff htag => ?_⟩
    simp [Entry.plannedFor, hyoff, htag] at hplanned
  | rekey tag t =>
    refine hsame rfl ?_
    obtain hx | ⟨e, he, hfor, rfl | ⟨c, rfl, -⟩⟩ := mem_rekey hx
    · exact ⟨x, hx, hoff, rfl⟩
    · exact ⟨e, he, (unmark_isOff e).symm.trans hoff, (unmark_tag e).symm⟩
    · exact ⟨e, he, (unmark_isOff e).symm.trans hoff, (unmark_tag e).symm⟩
  | stations v hv => exact hsame rfl ⟨x, hx, hoff, rfl⟩
  | withdraw n hr => exact hsame rfl (hwithdraw hx)
  | fail n hr =>
    obtain ⟨hlist, -, hqueue, -⟩ := failing_parts s n
    rw [hlist] at hx
    exact hsame (by rw [hqueue]) (hwithdraw hx)
  | overtake n new => exact hsame rfl ⟨x, hx, hoff, rfl⟩
  | mark hop =>
    refine hsame rfl ?_
    obtain ⟨e, he, rfl⟩ := List.mem_map.1 hx
    refine ⟨e, he, ?_⟩
    split at hoff
    · exact ⟨hoff, by split <;> rfl⟩
    · exact ⟨hoff, by split <;> rfl⟩

theorem pairwise_of_forall {R : Entry → Entry → Prop} {es : List Entry} (h : ∀ x, ∀ y ∈ es, R x y) : es.Pairwise R :=
  List.pairwise_of_forall_mem_list fun x _ y hy => h x y hy

theorem Work.named {due moving : Bool} {w : Worker} {s t : State} (h : Work w s t) (ha : s.Ahead due)
    (ho : s.Ordered due moving) (hq : s.ListMatchesQueue) (hs : s.Named) (hheld : w = .advance → ∀ l, s.HeldAt 1 l) :
    t.Named := by
  have ha' := h.ahead ha hheld
  refine ⟨fun x hx => h.live ha ho hs x hx, ?_, h.reshaped.last ha ho hq hs hheld, fun hop n hn => ?_⟩
  · cases hop : s.control.op with
    | setup =>
      rw [ha'.setup (h.frame.op.trans hop)]
      exact .nil
    | tracking => exact pairwise_of_forall fun x y hy _ => ha'.unreached (h.frame.op.trans hop) y hy
    | halted => exact h.reshaped.reached ha ho hs hop
  · rw [h.frame.op] at hop
    rw [h.frame.stationConfig, beforeExitAt_congr h.frame.laneConfig]
    exact hs.stations hop n (h.enabled_of hn)

end Sys2Proof.Machine
end

section
/-! PROOFS. The belt and the list (O60), third part: the layers are kept by the other pieces of a step. -/

namespace Sys2Proof.Machine

/-! ### What the configuration checks give (section 5.6) -/

/-- Where something fails there is a first failure. -/
theorem exists_firstFailure {fails : Nat → Nat → Prop} {check unit : Nat} (h : fails check unit) :
    ∃ c u, FirstFailure fails c u := by
  classical
  have hchecks : ∃ c, ∃ u, fails c u := ⟨check, unit, h⟩
  have hunits := Nat.find_spec hchecks
  refine ⟨Nat.find hchecks, Nat.find hunits, Nat.find_spec hunits, ?_⟩
  rintro c u (hlt | ⟨rfl, hlt⟩) hfails
  · exact Nat.find_min hchecks hlt ⟨u, hfails⟩
  · exact Nat.find_min hunits hlt hfails

/-- A search that reports nothing leaves nothing that fails. -/
theorem Reports.not_fails {fails : Nat → Nat → Prop} (h : Reports none fails) (check unit : Nat) : ¬ fails check unit := by
  intro hfails
  obtain ⟨c, u, hfirst⟩ := exists_firstFailure hfails
  cases h.first c u hfirst

theorem startFailure_none {s : State} (h : s.startFailure = none) (check unit : Nat) : ¬ s.startFails check unit :=
  (h ▸ startFailure_reports s : Reports none s.startFails).not_fails check unit

theorem enableFailure_none {s : State} {n : StationId} (h : s.enableFailure n = none) (check unit : Nat) :
    ¬ s.enableFails n check unit :=
  (h ▸ enableFailure_reports s n : Reports none (s.enableFails n)).not_fails check unit

/-- Checks 3 and 5 of a station give the distances that the list rests on (R105). -/
theorem distances_of_checks {s : State} {c : StationConfig} {x : LaneConfig}
    (hx : s.lanes[c.lane].config = x) (h3 : x.filter.toNat < c.offset.toNat ∧ c.offset.toNat < x.exit.toNat)
    (h5 : c.verdictDependent = true → ¬ x.Disordered) : s.BeyondFilterAt c ∧ s.BeforeExitAt c := by
  unfold State.BeyondFilterAt State.BeforeExitAt
  rw [hx]
  refine ⟨⟨h3.1, fun hd => ?_⟩, h3.2, fun hd => ?_⟩
  · exact (not_not.1 (h5 hd)).1
  · exact (not_not.1 (h5 hd)).2

theorem start_distances {s : State} (h : s.startFailure = none) {n : StationId}
    (hn : s.stations[n].config.enabled = true) :
    s.BeyondFilterAt s.stations[n].config ∧ s.BeforeExitAt s.stations[n].config := by
  refine distances_of_checks rfl ?_ fun hd hdis => ?_
  · by_contra h3
    exact startFailure_none h 3 n.val (.inr (.inl ⟨n, rfl, hn, .inr (.inl ⟨rfl, h3⟩)⟩))
  · exact startFailure_none h 5 s.stations[n].config.lane.val
      (.inr (.inr (.inl ⟨rfl, _, rfl, hdis, n, hn, rfl, (verdictDependent_iff _).1 hd⟩)))

theorem enable_distances {s : State} {n : StationId} (h : s.enableFailure n = none) :
    s.BeyondFilterAt s.stations[n].config ∧ s.BeforeExitAt s.stations[n].config := by
  refine distances_of_checks rfl ?_ fun hd hdis => ?_
  · by_contra h3
    exact enableFailure_none h 3 n.val (.inl ⟨rfl, .inr (.inl ⟨rfl, h3⟩)⟩)
  · exact enableFailure_none h 5 s.stations[n].config.lane.val
      (.inr (.inl ⟨rfl, rfl, hdis, (verdictDependent_iff _).1 hd⟩))

/-! ### The stations' distances in the turns of a step -/

/-- A turn that leaves the part in SETUP, or one by which no station comes into service, keeps what holds of ENABLED
stations; START and STATION_ENABLE check it. -/
theorem Turn.enabledStations {Q : State → StationConfig → Prop} (hQ : ∀ s t : State,
      (∀ l : LaneId, t.lanes[l].config = s.lanes[l].config) → ∀ c, Q s c → Q t c)
    (hstart : ∀ {s : State}, s.startFailure = none → ∀ {n : StationId}, s.stations[n].config.enabled = true →
      Q s s.stations[n].config)
    (henable : ∀ {s : State} {n : StationId}, s.enableFailure n = none → Q s s.stations[n].config)
    {s t : State} (h : Turn s t)
    (hs : s.control.op ≠ .setup → ∀ n : StationId, s.stations[n].runtime = .enabled → Q s s.stations[n].config)
    (ho : t.control.op ≠ .setup) (n : StationId) (hn : t.stations[n].runtime = .enabled) : Q t t.stations[n].config := by
  have hsame {u : State} {c : StationConfig} (hc : Q s c) (hl : ∀ l : LaneId, u.lanes[l].config = s.lanes[l].config) :
      Q u c := hQ s u hl c hc
  have hupd (m : StationId) (f : Station → Station) (hc : ∀ x, (f x).config = x.config) (ho : s.control.op ≠ .setup)
      (hQm : Q s s.stations[m].config) (hn : (s.updStation m f).stations[n].runtime = .enabled) :
      Q (s.updStation m f) (s.updStation m f).stations[n].config := by
    rw [State.updStation, upd_get_proj m n Station.config (hc _)]
    refine hsame ?_ fun _ => rfl
    rw [State.updStation, upd_get] at hn
    split at hn
    next h => exact h ▸ hQm
    next => exact hs ho n hn
  cases h with
  | holdHalt ho' =>
    obtain ⟨-, -, -, hlanes, -⟩ := haltTaken_parts ((s.setHld false).sampleHld true) .holdInput
    rw [haltTaken_config]
    have hruntime : s.stations[n].runtime = .enabled := by
      change (mapAll _ s.stations)[n].runtime = .enabled at hn
      rwa [mapAll_get] at hn
    exact hQ s _ (fun l => by rw [hlanes]; rfl) _ (hs (ho'.trans_ne (by simp)) n hruntime)
  | popWord =>
    obtain ⟨events, heq⟩ := popEventWord_parts s
    rw [heq] at hn ho ⊢
    exact hsame (hs ho n hn) fun _ => rfl
  | setupMove counter ho' => exact absurd ho' ho
  | globals g ho' => exact absurd ho' ho
  | laneConfig l c ho' => exact absurd ho' ho
  | stationConfig m c ho' => exact absurd ho' ho
  | output o f ho' => exact absurd ho' ho
  | start hrun ho' hhld hchecks =>
    rw [beginTracking_station] at hn ⊢
    have henabled : s.stations[n].config.enabled = true := by
      simp only [Station.started] at hn
      split at hn
      next h => exact h
      next => cases hn
    exact hQ s _ (fun l => by rw [beginTracking_lane]; rfl) _ (hstart hchecks henabled)
  | stop => exact absurd rfl ho
  | clear ho' => exact absurd ho' ho
  | resume ho' => exact hsame (hs (ho'.trans_ne (by simp)) n hn) fun _ => rfl
  | clearFailed m ho' hr =>
    rw [State.updStation, upd_get] at hn
    split at hn
    · cases hn
    next hne =>
      rw [State.updStation, upd_get_proj m n Station.config rfl]
      exact hsame (hs ho' n hn) fun _ => rfl
  | switchOn m ho' hchecks => exact hupd m _ (fun _ => rfl) ho' (henable hchecks) hn
  | _ => exact hsame (hs ho n hn) fun _ => rfl

/-! ### The layer of positions -/

/-- In SETUP, with an empty list and detectors OFF, no entry lies anywhere. -/
theorem ahead_of_setup {due : Bool} {s : State} (hc : s.ConfigSound) (ho : s.control.op = .setup)
    (hl : s.list.entries = []) (hd : ∀ l : LaneId, s.lanes[l].detector = .off) : s.Ahead due := by
  have hnone {e : Entry} (he : e ∈ s.list.entries) : False := by
    rw [hl] at he
    cases he
  exact ⟨hc, fun _ => ho, fun _ => hl, fun _ => hd, fun _ e he => (hnone he).elim, fun _ e he => (hnone he).elim,
    fun h => absurd ho h, fun h => absurd ho h⟩

theorem ahead_of {due due' : Bool} {s t : State} (hs : s.Ahead due) (hc : t.ConfigSound)
    (hrun : t.running = false → s.running = false) (ho : t.control.op = s.control.op)
    (hl : t.list.entries = s.list.entries) (hd : ∀ l : LaneId, t.lanes[l].detector = s.lanes[l].detector)
    (hlc : ∀ l : LaneId, t.lanes[l].config = s.lanes[l].config)
    (hf : s.control.op ≠ .setup → ∀ e ∈ s.list.entries, e.reached = false → s.Faces due e → t.Faces due' e)
    (hst : t.BeyondFilter) : t.Ahead due' := by
  refine ⟨hc, fun h => ho.trans (hs.running (hrun h)), fun h => hl.trans (hs.setup (ho.symm.trans h)),
    fun h l => (hd l).trans (hs.detectors (ho.symm.trans h) l), ?_, ?_, ?_, hst⟩
  · rw [ho, hl]
    exact hs.unreached
  · rw [ho, hl]
    exact fun hne e he hr => hf hne e he hr (hs.faces hne e he hr)
  · rw [State.Filters, ho]
    intro hne l capture hcapture
    rw [hlc]
    exact hs.filters hne l capture ((hd l).symm.trans hcapture)

theorem faces_congr {due : Bool} {s t : State} {e : Entry} (h : s.Faces due e)
    (hp : t.position.tracking = s.position.tracking) : t.Faces due e := by
  rwa [State.Faces, hp]

theorem haltTaken_ahead {due : Bool} {s : State} (c : Cause) (hs : s.Ahead due) (ho : s.control.op = .tracking) :
    (s.haltTaken c).Ahead due := by
  obtain ⟨hpower, hpins, hposition, hlanes, hqueue, hlist, hcfm, hglobals, hhld⟩ := haltTaken_parts s c
  have hne : s.control.op ≠ .setup := ho.trans_ne (by simp)
  refine ⟨kept_configSound.settles _ _ (.halt c ho) hs.config, fun h => ?_, fun h => (nomatch h), fun h => (nomatch h),
    fun h => (nomatch h), fun _ e he hr => ?_, fun _ l capture hcapture => ?_, fun _ n hn => ?_⟩
  · rw [running_congr hpower hpins] at h
    exact absurd (hs.running h) hne
  · rw [hlist] at he
    exact faces_congr (hs.faces hne e he hr) (by rw [hposition])
  · rw [hlanes] at hcapture ⊢
    exact hs.filters hne l capture hcapture
  · rw [haltTaken_config]
    refine (beyondFilterAt_congr (s := s) (fun l => by rw [hlanes]) _).2 (hs.stations hne n ?_)
    change (mapAll _ s.stations)[n].runtime = .enabled at hn
    rwa [mapAll_get] at hn

theorem Settles.ahead {due : Bool} {s t : State} (h : Settles s t) (hs : s.Ahead due) : t.Ahead due := by
  have hc := kept_configSound.settles _ _ h hs.config
  cases h with
  | halt c ho => exact haltTaken_ahead c hs ho
  | again c ho =>
    exact ahead_of hs hc id rfl rfl (fun _ => rfl) (fun _ => rfl) (fun _ _ _ _ h => h) hs.stations
  | book => exact ahead_of hs hc id rfl rfl (fun _ => rfl) (fun _ => rfl) (fun _ _ _ _ h => h) hs.stations

theorem Turn.ahead {s t : State} (h : Turn s t)
    (hstay : t.position.tracking = s.position.tracking ∨ s.control.op = .setup ∨ t.control.op = .setup)
    (hs : s.Ahead false) : t.Ahead false := by
  have hc := h.configSound hs.config
  have hst : t.BeyondFilter := fun ho n hn =>
    h.enabledStations (Q := State.BeyondFilterAt) (fun _ _ hl c => (beyondFilterAt_congr hl c).2)
      (fun h _ hn => (start_distances h hn).1) (fun h => (enable_distances h).1) hs.stations ho n hn
  have hsame (hrun : t.running = false → s.running = false) (ho : t.control.op = s.control.op)
      (hl : t.list.entries = s.list.entries) (hlanes : t.lanes = s.lanes)
      (hp : t.position.tracking = s.position.tracking) : t.Ahead false :=
    ahead_of hs hc hrun ho hl (fun l => by rw [hlanes]) (fun l => by rw [hlanes])
      (fun _ _ _ _ h => faces_congr h hp) hst
  cases h with
  | pins p hrun hp => exact hsame (fun _ => hrun) rfl rfl rfl rfl
  | holdHalt ho =>
    exact haltTaken_ahead (s := (s.setHld false).sampleHld true) .holdInput
      (ahead_of hs ⟨hs.config.1, hs.config.2, hs.config.3⟩ id rfl rfl (fun _ => rfl) (fun _ => rfl) (fun _ _ _ _ h => h) hs.stations) ho
  | popWord =>
    obtain ⟨events, heq⟩ := popEventWord_parts s
    have hrun : s.popEventWord.running = s.running := by rw [heq]; rfl
    exact hsame (fun h => hrun.symm.trans h) (by rw [heq]) (by rw [heq]) (by rw [heq]) (by rw [heq])
  | setupMove counter ho => exact ahead_of_setup hc ho (hs.setup ho) (hs.detectors ho)
  | stepped ho hr =>
    obtain h | h | h := hstay
    · exact absurd h (by simp [State.stepped, State.setPositions])
    · exact absurd h ho
    · exact absurd h ho
  | laneConfig l c ho hc' =>
    refine ahead_of_setup hc ho (hs.setup ho) fun m => ?_
    exact (upd_get_proj l m Lane.detector rfl).trans (hs.detectors ho m)
  | start hrun ho hhld hchecks =>
    have hnone {e : Entry} (he : e ∈ s.beginTracking.list.entries) : False := by
      have he : e ∈ s.list.entries := he
      rw [hs.setup ho] at he
      cases he
    refine ⟨hc, fun h => ?_, fun h => (nomatch h), fun h => (nomatch h), fun _ e he => (hnone he).elim,
      fun _ e he => (hnone he).elim, fun _ l capture hcapture => ?_, hst⟩
    · exact absurd (hrun.symm.trans h) (by simp)
    · rw [beginTracking_lane] at hcapture
      unfold Lane.started at hcapture
      dsimp only at hcapture
      split at hcapture
      · split at hcapture <;> cases hcapture
      · cases hcapture
  | stop => exact ahead_of_setup hc rfl rfl (returnToSetup_empty s).detectors
  | clear ho =>
    refine ahead_of_setup hc ho (hs.setup ho) fun l => ?_
    change (mapAll _ s.lanes)[l].detector = .off
    rw [mapAll_get]
    exact hs.detectors ho l
  | resume ho hhld hreached =>
    have hne : s.control.op ≠ .setup := ho.trans_ne (by simp)
    have hall (e : Entry) (he : e ∈ s.list.entries) : e.reached = false := by
      simpa using List.all_eq_true.1 hreached e he
    exact ⟨hc, fun h => absurd (hs.running h) hne, fun h => (nomatch h), fun h => (nomatch h), fun _ e he => hall e he,
      fun _ e he hr => hs.faces hne e he hr, fun _ => hs.filters hne, hst⟩
  | _ => exact hsame id rfl rfl rfl rfl

theorem ahead_step {p q : Pos} (h : ahead p q = true) : ahead p (q + 1) = true ∨ p = q + 1 := by
  rw [ahead_iff] at h
  rw [ahead_iff, ← dist_eq_zero]
  have hone : (q + 1 - q).toNat = 1 := by
    rw [dist_offset]
    rfl
  have hsub := dist_sub (p := p) (q := q + 1) (r := q) (by omega)
  omega

theorem stepped_ahead {s : State} (hs : s.Ahead false) : s.stepped.Ahead true := by
  refine ahead_of hs ⟨hs.config.1, hs.config.2, hs.config.3⟩ id rfl rfl (fun _ => rfl) (fun _ => rfl)
    (fun _ e _ _ hface => ?_) hs.stations
  have hahead := hface.resolve_right (by simp)
  obtain h | h := ahead_step hahead
  · exact .inl h
  · exact .inr ⟨rfl, h⟩

theorem settle_ahead {due : Bool} {s : State} (hs : s.Ahead due) : s.settleFiringPoint.Ahead due :=
  ahead_of hs ⟨hs.config.1, hs.config.2, hs.config.3⟩ id rfl rfl (fun _ => rfl) (fun _ => rfl) (fun _ _ _ _ h => h)
    hs.stations

theorem fired_ahead {s : State} (hs : s.Ahead true)
    (h : ∀ e ∈ s.list.entries, e.reached = false → e.fire ≠ s.position.tracking) : s.Ahead false :=
  { hs with faces := fun ho e he hr => .inl ((hs.faces ho e he hr).resolve_right fun hdue => h e he hr hdue.2) }

/-! ### The layer of the list order -/

theorem ordered_of_nil {due moving : Bool} {s : State} (hl : s.list.entries = [])
    (ht : s.control.op = .tracking → s.position.tracking = if moving then s.list.firingPoint + 1 else s.list.firingPoint) :
    s.Ordered due moving := by
  have hnone {e : Entry} (he : e ∈ s.list.entries) : False := by
    rw [hl] at he
    cases he
  exact ⟨by rw [hl]; exact .nil, fun e he => (hnone he).elim, ht, fun _ e he => (hnone he).elim⟩

theorem ordered_of {due moving : Bool} {s t : State} (hs : s.Ordered due moving) (ho : t.control.op = s.control.op)
    (hl : t.list = s.list) (hp : t.position.tracking = s.position.tracking) : t.Ordered due moving :=
  ⟨by rw [hl]; exact hs.order, by rw [hl]; exact hs.near, by rw [ho, hl, hp]; exact hs.tracking,
    by rw [ho, hl, hp]; exact hs.halted⟩

/-- The firing point brought to the belt, in TRACKING or at halt entry: all entries lie at or beyond it. -/
theorem State.Ordered.toBelt {due moving : Bool} {s : State} (hs : s.Ordered due moving) (ha : s.Ahead due)
    (ho : s.control.op ≠ .setup) (hall : ∀ e ∈ s.list.entries, e.reached = false) :
    s.list.entries.Pairwise (Entry.NotAfter s.position.tracking)
      ∧ ∀ e ∈ s.list.entries, (e.fire - s.position.tracking).toNat < 2 ^ 31
          ∧ (0 < (e.fire - s.position.tracking).toNat ∨ (due = true ∧ e.fire = s.position.tracking)) := by
  refine ⟨order_shift hs.order fun e he => hs.beyond ha ho he (hall e he), fun e he => ?_⟩
  obtain hahead | hdue := ha.faces ho e he (hall e he)
  · rw [ahead_iff] at hahead
    exact ⟨hahead.2, .inl hahead.1⟩
  · refine ⟨?_, .inr hdue⟩
    rw [hdue.2, dist_self]
    decide

theorem haltTaken_ordered {due moving : Bool} {s : State} (c : Cause) (ha : s.Ahead due) (hs : s.Ordered due moving)
    (ho : s.control.op = .tracking) : (s.haltTaken c).Ordered due moving := by
  obtain ⟨-, -, hposition, -, -, hlist, -⟩ := haltTaken_parts s c
  obtain ⟨horder, hdist⟩ := hs.toBelt ha (ho.trans_ne (by simp)) (ha.unreached ho)
  have hfp : (s.haltTaken c).list.firingPoint = s.position.tracking := rfl
  refine ⟨by rw [hlist, hfp]; exact horder, ?_, fun h => (nomatch h), fun _ => ?_⟩
  · rw [hlist, hfp]
    exact fun e he => (hdist e he).1
  · rw [hlist, hfp, hposition, dist_self]
    exact fun e he _ => (hdist e he).2

theorem Settles.ordered {due moving : Bool} {s t : State} (h : Settles s t) (ha : s.Ahead due)
    (hs : s.Ordered due moving) : t.Ordered due moving := by
  cases h with
  | halt c ho => exact haltTaken_ordered c ha hs ho
  | again c ho => exact ordered_of hs rfl rfl rfl
  | book => exact ordered_of hs rfl rfl rfl

theorem settle_ordered {due moving : Bool} {s : State} (ha : s.Ahead due) (hs : s.Ordered due moving)
    (ho : s.control.op = .tracking) : s.settleFiringPoint.Ordered due false := by
  obtain ⟨horder, hdist⟩ := hs.toBelt ha (ho.trans_ne (by simp)) (ha.unreached ho)
  exact ⟨horder, fun e he => (hdist e he).1, fun _ => rfl, fun h => absurd (ho.symm.trans h) (by simp)⟩

theorem Turn.ordered {s t : State} (h : Turn s t)
    (hstay : t.position.tracking = s.position.tracking ∨ s.control.op = .setup ∨ t.control.op = .setup)
    (ha : s.Ahead false) (hs : s.Ordered false false) : t.Ordered false false := by
  have hsetup {t : State} (ho : s.control.op = .setup) (hl : t.list.entries = s.list.entries)
      (ht : t.control.op = .setup) : t.Ordered false false :=
    ordered_of_nil (hl.trans (ha.setup ho)) fun h => absurd (ht.symm.trans h) (by simp)
  cases h with
  | holdHalt ho =>
    exact haltTaken_ordered (s := (s.setHld false).sampleHld true) .holdInput
      (ahead_of ha ⟨ha.config.1, ha.config.2, ha.config.3⟩ id rfl rfl (fun _ => rfl) (fun _ => rfl) (fun _ _ _ _ h => h) ha.stations)
      (ordered_of hs rfl rfl rfl) ho
  | popWord =>
    obtain ⟨events, heq⟩ := popEventWord_parts s
    rw [heq]
    exact ordered_of hs rfl rfl rfl
  | setupMove counter ho => exact hsetup ho rfl ho
  | stepped ho hr =>
    obtain h | h | h := hstay
    · exact absurd h (by simp [State.stepped, State.setPositions])
    · exact absurd h ho
    · exact absurd h ho
  | settle ho => exact settle_ordered ha hs ho
  | start hrun ho hhld hchecks => exact ordered_of_nil (ha.setup ho) fun _ => rfl
  | stop => exact ordered_of_nil rfl fun h => nomatch h
  | resume ho hhld hreached =>
    have hall (e : Entry) (he : e ∈ s.list.entries) : e.reached = false := by
      simpa using List.all_eq_true.1 hreached e he
    obtain ⟨horder, hdist⟩ := hs.toBelt ha (ho.trans_ne (by simp)) hall
    exact ⟨horder, fun e he => (hdist e he).1, fun _ => rfl, fun h => nomatch h⟩
  | _ => exact ordered_of hs rfl rfl rfl

theorem stepped_ordered {s : State} (hs : s.Ordered false false) : s.stepped.Ordered true true := by
  refine ⟨hs.order, hs.near, fun ho => ?_, fun ho e he hr => ?_⟩
  · change s.position.tracking + 1 = s.list.firingPoint + 1
    rw [hs.tracking ho]
    rfl
  · have hlt := (hs.halted ho e he hr).resolve_right (by simp)
    have hnear := hs.near e he
    change (s.position.tracking + 1 - s.list.firingPoint).toNat < _ ∨ true = true ∧ e.fire = s.position.tracking + 1
    have hone : (s.position.tracking + 1 - s.position.tracking).toNat = 1 := by
      rw [dist_offset]
      rfl
    have hadd := dist_add (p := s.position.tracking + 1) (q := s.position.tracking) (r := s.list.firingPoint) (by omega)
    obtain h | h := Nat.lt_or_eq_of_le (show (s.position.tracking + 1 - s.list.firingPoint).toNat
      ≤ (e.fire - s.list.firingPoint).toNat by omega)
    · exact .inl h
    · exact .inr ⟨rfl, (dist_eq h).symm⟩

theorem still_ordered {due : Bool} {s : State} (hs : s.Ordered due true) (ho : s.control.op ≠ .tracking) :
    s.Ordered due false := ⟨hs.order, hs.near, fun h => absurd h ho, hs.halted⟩

theorem fired_ordered {moving : Bool} {s : State} (hs : s.Ordered true moving)
    (h : ∀ e ∈ s.list.entries, e.reached = false → e.fire ≠ s.position.tracking) : s.Ordered false moving :=
  { hs with halted := fun ho e he hr => .inl ((hs.halted ho e he hr).resolve_right fun hdue => h e he hr hdue.2) }

theorem State.Ordered.mono {moving : Bool} {s : State} (hs : s.Ordered false moving) (due : Bool) : s.Ordered due moving :=
  { hs with halted := fun ho e he hr => .inl ((hs.halted ho e he hr).resolve_right (by simp)) }

/-! ### The layer of the live items -/

theorem named_of {s t : State} (hs : s.Named) (hl : t.list.entries = s.list.entries) (hq : t.queue.items = s.queue.items)
    (hst : t.BeforeExit) : t.Named :=
  ⟨by rw [hl, hq]; exact hs.live, by rw [hl]; exact hs.reached, by rw [hl]; exact hs.last, hst⟩

theorem named_of_nil {s : State} (hl : s.list.entries = []) (hst : s.BeforeExit) : s.Named :=
  ⟨by rw [hl]; exact fun e he => (nomatch he), by rw [hl]; exact .nil, by rw [hl]; exact .nil, hst⟩

theorem Settles.named {s t : State} (h : Settles s t) (hs : s.Named) : t.Named := by
  cases h with
  | halt c ho =>
    obtain ⟨-, -, -, hlanes, hqueue, hlist, -⟩ := haltTaken_parts s c
    refine named_of hs hlist (by rw [hqueue]) fun _ n hn => ?_
    rw [haltTaken_config]
    refine (beforeExitAt_congr (s := s) (fun l => by rw [hlanes]) _).2 (hs.stations (ho.trans_ne (by simp)) n ?_)
    change (mapAll _ s.stations)[n].runtime = .enabled at hn
    rwa [mapAll_get] at hn
  | again c ho => exact named_of hs rfl rfl hs.stations
  | book => exact named_of hs rfl rfl hs.stations

theorem Turn.named {s t : State} (h : Turn s t) (hs : s.Named) : t.Named := by
  have hst : t.BeforeExit := fun ho n hn =>
    h.enabledStations (Q := State.BeforeExitAt) (fun _ _ hl c => (beforeExitAt_congr hl c).2)
      (fun h _ hn => (start_distances h hn).2) (fun h => (enable_distances h).2) hs.stations ho n hn
  cases h with
  | holdHalt ho =>
    obtain ⟨-, -, -, -, hqueue, hlist, -⟩ := haltTaken_parts ((s.setHld false).sampleHld true) .holdInput
    exact named_of hs hlist (by rw [hqueue]; rfl) hst
  | popWord =>
    obtain ⟨events, heq⟩ := popEventWord_parts s
    rw [heq] at hst ⊢
    exact named_of hs rfl rfl hst
  | stop => exact named_of_nil rfl hst
  | _ => exact named_of hs rfl rfl hst

end Sys2Proof.Machine
end

section
/-! PROOFS. The belt and the list (O60), last part: what an advance, a re-sampling and every command do to a layer of
the invariant, said once for all three layers. -/

namespace Sys2Proof.Machine

/-! ### Layers -/

/-- A layer of the invariant, from the positions up: kept by each work (an enrolment at an advance needs the captures
close to the belt), by the taking of requests and by each turn. At an advance the list is due and the firing point
follows; it is so until the list has fired and the firing point has moved. -/
structure Layer (P : Bool → Bool → State → Prop) : Prop where
  ahead : ∀ {due moving s}, P due moving s → s.Ahead due
  mono : ∀ {moving s} due, P false moving s → P due moving s
  work : ∀ {due moving w s t}, Work w s t → P due moving s → (w = .advance → ∀ l, s.HeldAt 1 l) → P due moving t
  settles : ∀ {due moving s t}, Settles s t → P due moving s → P due moving t
  turn : ∀ {s t}, Turn s t → t.position.tracking = s.position.tracking ∨ s.control.op = .setup ∨ t.control.op = .setup →
    P false false s → P false false t
  stepped : ∀ {s}, P false false s → P true true s.stepped
  settle : ∀ {s}, s.control.op = .tracking → P false true s → P false false s.settleFiringPoint
  still : ∀ {s}, s.control.op ≠ .tracking → P false true s → P false false s
  fired : ∀ {moving s}, (∀ e ∈ s.list.entries, e.reached = false → e.fire ≠ s.position.tracking) → P true moving s →
    P false moving s
  idle : ∀ (s : State) (power : Power) (p : Pins), s.running = false →
    State.running { s with power := power, pins := p } = false → P false false s →
    P false false { s with power := power, pins := p }
  blocks : ∀ (s : State) (p : Pins) (power : Power) (powerOn : Bool),
    P false false { State.resetBlocks { s with pins := p } powerOn with power := power }

theorem idle_ahead {s : State} (power : Power) (p : Pins) (hr : s.running = false) (hs : s.Ahead false) :
    State.Ahead false { s with power := power, pins := p } :=
  ahead_of_setup ⟨hs.config.1, hs.config.2, hs.config.3⟩ (hs.running hr) (hs.setup (hs.running hr))
    (hs.detectors (hs.running hr))

theorem blocks_ahead (s : State) (p : Pins) (power : Power) (powerOn : Bool) :
    State.Ahead false { State.resetBlocks { s with pins := p } powerOn with power := power } :=
  ahead_of_setup (kept_configSound.blocks s p power powerOn) rfl rfl
    (resetBlocks_empty { s with pins := p } powerOn).detectors

theorem layer_ahead : Layer (fun due _ s => s.Ahead due) where
  ahead h := h
  mono due h := h.mono due
  work h hs hheld := h.ahead hs hheld
  settles h hs := h.ahead hs
  turn h hstay hs := h.ahead hstay hs
  stepped hs := stepped_ahead hs
  settle _ hs := settle_ahead hs
  still _ hs := hs
  fired h hs := fired_ahead hs h
  idle _ power p hr _ hs := idle_ahead power p hr hs
  blocks := blocks_ahead

theorem layer_ordered : Layer (fun due moving s => s.Ahead due ∧ s.Ordered due moving) where
  ahead h := h.1
  mono due h := ⟨h.1.mono due, h.2.mono due⟩
  work h hs hheld := ⟨h.ahead hs.1 hheld, h.ordered hs.1 hs.2 hheld⟩
  settles h hs := ⟨h.ahead hs.1, h.ordered hs.1 hs.2⟩
  turn h hstay hs := ⟨h.ahead hstay hs.1, h.ordered hstay hs.1 hs.2⟩
  stepped hs := ⟨stepped_ahead hs.1, stepped_ordered hs.2⟩
  settle ho hs := ⟨settle_ahead hs.1, settle_ordered hs.1 hs.2 ho⟩
  still ho hs := ⟨hs.1, still_ordered hs.2 ho⟩
  fired h hs := ⟨fired_ahead hs.1 h, fired_ordered hs.2 h⟩
  idle _ power p hr _ hs := ⟨idle_ahead power p hr hs.1, ordered_of hs.2 rfl rfl rfl⟩
  blocks s p power powerOn := ⟨blocks_ahead s p power powerOn, ordered_of_nil rfl fun h => nomatch h⟩

theorem layer_named :
    Layer (fun due moving s => s.Ahead due ∧ s.Ordered due moving ∧ s.ListMatchesQueue ∧ s.Named) where
  ahead h := h.1
  mono due h := ⟨h.1.mono due, h.2.1.mono due, h.2.2⟩
  work h hs hheld := by
    obtain ⟨ha, ho, hq, hn⟩ := hs
    exact ⟨h.ahead ha hheld, h.ordered ha ho hheld, kept_listMatchesQueue.work _ _ _ h hq, h.named ha ho hq hn hheld⟩
  settles h hs := by
    obtain ⟨ha, ho, hq, hn⟩ := hs
    exact ⟨h.ahead ha, h.ordered ha ho, kept_listMatchesQueue.settles _ _ h hq, h.named hn⟩
  turn h hstay hs := by
    obtain ⟨ha, ho, hq, hn⟩ := hs
    exact ⟨h.ahead hstay ha, h.ordered hstay ha ho, kept_listMatchesQueue.turn _ _ h hq, h.named hn⟩
  stepped hs := by
    obtain ⟨ha, ho, hq, hn⟩ := hs
    exact ⟨stepped_ahead ha, stepped_ordered ho, ⟨⟨hq.1.1, hq.1.2, hq.1.3, hq.1.4⟩, hq.2⟩, named_of hn rfl rfl hn.stations⟩
  settle hop hs := by
    obtain ⟨ha, ho, hq, hn⟩ := hs
    exact ⟨settle_ahead ha, settle_ordered ha ho hop, ⟨⟨hq.1.1, hq.1.2, hq.1.3, hq.1.4⟩, hq.2⟩,
      named_of hn rfl rfl hn.stations⟩
  still hop hs := ⟨hs.1, still_ordered hs.2.1 hop, hs.2.2⟩
  fired h hs := ⟨fired_ahead hs.1 h, fired_ordered hs.2.1 h, hs.2.2⟩
  idle s power p hr hr' hs := by
    obtain ⟨ha, ho, hq, hn⟩ := hs
    exact ⟨idle_ahead power p hr ha, ordered_of ho rfl rfl rfl, kept_listMatchesQueue.idle s power p hr hr' hq,
      named_of hn rfl rfl hn.stations⟩
  blocks s p power powerOn := ⟨blocks_ahead s p power powerOn, ordered_of_nil rfl fun h => (nomatch h),
    kept_listMatchesQueue.blocks s p power powerOn, named_of_nil rfl fun h => absurd rfl h⟩

/-! ### What a lane's detector holds after it acts -/

theorem checkLong_detector (s : State) (l m : LaneId) : (s.checkLong l).lanes[m].detector = s.lanes[m].detector := by
  unfold State.checkLong
  split
  · rfl
  · rw [State.findLong, applySizePolicy_detector, report_lanes, updItem_lanes]

theorem setDetector_detector (s : State) (l : LaneId) (d : Detector) : (s.setDetector l d).lanes[l].detector = d := by
  rw [State.setDetector, State.updLane, upd_get_same]

/-- After a leading edge the lane follows the item, or follows it without a link. -/
theorem acceptLeading_detector (s : State) (l : LaneId) (pos : Pos) :
    ∃ link, (s.acceptLeading l pos).lanes[l].detector = .occupied link none := by
  have hrefuse (u : State) (reason : Word) : (u.refuseAdmission l reason).lanes[l].detector = .occupied none none := by
    unfold State.refuseAdmission
    dsimp only
    split
    · exact setDetector_detector ..
    · exact setDetector_detector ..
  unfold State.acceptLeading
  dsimp only
  simp only [State.updLane, upd_get_same]
  split
  · exact ⟨none, setDetector_detector ..⟩
  · unfold State.requestAdmission
    split
    next tag _ => exact ⟨some tag, (checkLong_detector ..).trans (setDetector_detector ..)⟩
    · exact ⟨none, hrefuse ..⟩
    · exact ⟨none, hrefuse ..⟩

theorem acceptTrailing_detector (s : State) (l : LaneId) (link : Option Tag) (pos : Pos) :
    (s.acceptTrailing l link pos).lanes[l].detector = .clear := setDetector_detector ..

theorem heldAt_of_not_filtering {s : State} {k : Nat} {l : LaneId}
    (h : ∀ capture, s.lanes[l].detector ≠ .filtering capture) : s.HeldAt k l :=
  fun _ _ capture hd => absurd hd (h capture)

theorem heldAt_of_detector {s : State} {k : Nat} {l : LaneId} {d : Detector} (h : s.lanes[l].detector = d)
    (hd : ∀ capture, d ≠ .filtering capture) : s.HeldAt k l := heldAt_of_not_filtering (h ▸ hd)

theorem heldAt_of_not_tracking {s : State} {k : Nat} {l : LaneId} (h : s.control.op ≠ .tracking) : s.HeldAt k l :=
  fun ho => absurd ho h

theorem blanked_of {s : State} (ho : s.control.op = .tracking) (hr : s.reverse = 0) : s.blanked = false := by
  simp [State.blanked, ho, hr]

theorem byte_toNat (b : BitVec 8) : (b.zeroExtend 32 : Pos).toNat = b.toNat := by
  have := b.isLt
  simp only [BitVec.zeroExtend, BitVec.toNat_setWidth]
  omega

/-- A lane with nothing due at an advance has its capture closer than the filter distance. -/
theorem heldAt_of_not_due {s : State} {l : LaneId} (h : s.HeldAt 1 l) (hdue : s.laneDue l = false) : s.HeldAt 0 l := by
  intro ho hr capture hd
  obtain ⟨hactive, hdist⟩ := h ho hr capture hd
  refine ⟨hactive, ?_⟩
  have hreached : s.hasReached (capture + s.lanes[l].config.filter.zeroExtend 32) = false := by
    simpa only [State.laneDue, blanked_of ho hr, hd, hactive, Bool.not_false, Bool.true_and] using hdue
  by_contra hle
  have heq : (s.position.tracking - capture).toNat = (capture + s.lanes[l].config.filter.zeroExtend 32 - capture).toNat := by
    rw [dist_offset, byte_toNat]
    omega
  have hne := (Bool.or_eq_false_iff.1 hreached).1
  exact (beq_eq_false_iff_ne.1 hne) (dist_eq heq).symm

theorem laneAdvance_heldAt {s : State} {l : LaneId} (h : s.HeldAt 1 l) : (s.laneAdvance l).HeldAt 0 l := by
  unfold State.laneAdvance
  split
  next =>
    split
    · obtain ⟨link, hd⟩ := acceptLeading_detector s l ‹_›
      exact heldAt_of_detector hd fun _ => by simp
    · exact heldAt_of_detector (acceptTrailing_detector ..) fun _ => by simp
    next hd => exact heldAt_of_detector ((checkLong_detector ..).trans hd) fun _ => by simp
    next hd => exact heldAt_of_detector hd fun _ => by simp
    next hd => exact heldAt_of_detector hd fun _ => by simp
    next hd => exact heldAt_of_detector hd fun _ => by simp
  next hdue => exact heldAt_of_not_due h (by simpa using hdue)

/-- A capture taken at the belt is held. -/
theorem capture_heldAt {s : State} {l : LaneId} (hactive : s.inputActive l = true) (hf : s.lanes[l].config.filter ≠ 0) :
    (s.setDetector l (.filtering s.position.tracking)).HeldAt 0 l := by
  intro _ _ capture hd
  rw [setDetector_detector] at hd
  obtain rfl := Detector.filtering.inj hd
  have hconfig : (s.setDetector l (.filtering s.position.tracking)).lanes[l].config = s.lanes[l].config :=
    upd_get_proj l l Lane.config rfl
  refine ⟨?_, ?_⟩
  · rw [State.inputActive, hconfig]
    exact hactive
  · rw [hconfig, setDetector_position, dist_self]
    exact toNat_pos hf

theorem laneResample_heldAt {s : State} (hf : s.Filters) (l : LaneId) : (s.laneResample l).HeldAt 0 l := by
  unfold State.laneResample
  split
  next hb =>
    intro ho hr
    rw [blanked_of ho hr] at hb
    cases hb
  next hb =>
    dsimp only
    split
    next hd => exact heldAt_of_detector hd fun _ => by simp
    next hd =>
      split
      · exact heldAt_of_detector hd fun _ => by simp
      · exact heldAt_of_detector (setDetector_detector ..) fun _ => by simp
    next hd =>
      split
      next hactive =>
        split
        · obtain ⟨link, hd⟩ := acceptLeading_detector s l s.position.tracking
          exact heldAt_of_detector hd fun _ => by simp
        next hfilter => exact capture_heldAt hactive hfilter
      · exact heldAt_of_detector hd fun _ => by simp
    next capture hd =>
      split
      next hactive =>
        by_cases ho : s.control.op = .setup
        · exact heldAt_of_not_tracking (Eq.trans_ne ho (by simp))
        · exact capture_heldAt hactive (hf ho l capture hd)
      · exact heldAt_of_detector (setDetector_detector ..) fun _ => by simp
    next link candidate hd =>
      split
      · exact heldAt_of_detector ((checkLong_detector ..).trans (setDetector_detector ..)) fun _ => by simp
      · exact heldAt_of_detector (acceptTrailing_detector ..) fun _ => by simp

/-- A change of level at its input: a lane that was FILTERING has glitched, and one that captures does so at the belt. -/
theorem laneInput_heldAt {s : State} {l : LaneId} {level : Level} (h : s.HeldAt 0 l) (hl : s.pins.det[l] ≠ level) :
    ((s.setDet l level).laneInput l).HeldAt 0 l := by
  have hpin : (s.setDet l level).pins.det[l] = level := upd_get_same ..
  unfold State.laneInput
  split
  next hb =>
    intro ho hr
    rw [blanked_of ho hr] at hb
    cases hb
  next hb =>
    dsimp only
    split
    next hd => exact heldAt_of_detector hd fun _ => by simp
    next hd =>
      split
      · exact heldAt_of_detector hd fun _ => by simp
      · exact heldAt_of_detector (setDetector_detector ..) fun _ => by simp
    next hd =>
      split
      next hactive =>
        split
        · obtain ⟨link, hd⟩ := acceptLeading_detector (s.setDet l level) l (s.setDet l level).position.tracking
          exact heldAt_of_detector hd fun _ => by simp
        next hfilter => exact capture_heldAt hactive hfilter
      · exact heldAt_of_detector hd fun _ => by simp
    next capture hd =>
      split
      next hactive =>
        intro ho hr
        obtain ⟨hbefore, -⟩ := h ho hr capture hd
        unfold State.inputActive at hactive hbefore
        rw [hpin] at hactive
        have hconfig : (s.setDet l level).lanes[l].config = s.lanes[l].config := rfl
        rw [hconfig] at hactive
        exfalso
        revert hl hactive hbefore
        generalize s.pins.det[l] = x
        generalize s.lanes[l].config.activeLow = y
        cases x <;> cases y <;> cases level <;> simp
      · exact heldAt_of_detector (setDetector_detector ..) fun _ => by simp
    next link candidate hd =>
      split
      · exact heldAt_of_detector ((checkLong_detector ..).trans (setDetector_detector ..)) fun _ => by simp
      · split
        · exact heldAt_of_detector (acceptTrailing_detector ..) fun _ => by simp
        · exact heldAt_of_detector (setDetector_detector ..) fun _ => by simp

/-- At an advance every capture falls one count further behind. -/
theorem stepped_heldAt {s : State} {l : LaneId} (h : s.HeldAt 0 l) : s.stepped.HeldAt 1 l := by
  intro ho hr capture hd
  have hr' : s.reverse = 0 := by
    change s.position.tracking + 1 - (s.position.counter + 1) = 0 at hr
    rwa [add_sub_add_right_eq_sub] at hr
  obtain ⟨hactive, hdist⟩ := h ho hr' capture hd
  refine ⟨hactive, ?_⟩
  have hone : (s.position.tracking + 1 - s.position.tracking).toNat = 1 := by
    rw [dist_offset]
    rfl
  have hlt := s.lanes[l].config.filter.isLt
  change (s.position.tracking + 1 - capture).toNat < s.lanes[l].config.filter.toNat + 1
  rw [dist_add (q := s.position.tracking) (by omega)]
  omega

theorem Settles.heldAt {s t : State} (h : Settles s t) {k : Nat} {l : LaneId} (hl : s.HeldAt k l) : t.HeldAt k l := by
  cases h with
  | halt c ho => exact heldAt_of_not_tracking (by simp [State.haltTaken])
  | again c ho => exact hl
  | book => exact hl

end Sys2Proof.Machine
end

section
/-! PROOFS. What a firing does to the list, entry by entry (section 4.4): the due entries leave it, and no other entry
but the ON entries of a station that fails. -/

namespace Sys2Proof.Machine

/-! ### Placing -/

/-- Where an entry is placed: behind a stretch of entries that stay before it. -/
theorem insertEntry_split (p : Pos) (e : Entry) (es : List Entry) :
    ∃ before after, es = before ++ after ∧ insertEntry p e es = before ++ e :: after
      ∧ (∀ x ∈ before, staysBefore p e x = true) ∧ ∀ x ∈ after.head?, staysBefore p e x = false := by
  induction es with
  | nil => exact ⟨[], [], rfl, rfl, by simp, by simp⟩
  | cons x rest ih =>
    simp only [insertEntry]
    split
    next hstays =>
      obtain ⟨before, after, rfl, hinsert, hbefore, hafter⟩ := ih
      refine ⟨x :: before, after, rfl, by rw [hinsert]; rfl, fun y hy => ?_, hafter⟩
      obtain rfl | hy := List.mem_cons.1 hy
      · exact hstays
      · exact hbefore y hy
    next hstays => exact ⟨[], x :: rest, rfl, rfl, by simp, by simpa using hstays⟩

theorem sublist_insertEntry (p : Pos) (e : Entry) (es : List Entry) : es.Sublist (insertEntry p e es) := by
  obtain ⟨before, after, hes, hinsert, -⟩ := insertEntry_split p e es
  rw [hinsert, hes]
  exact List.Sublist.append_left (List.sublist_cons_self _ _) _

/-! ### Entries that are spared -/

/-- The entry as it was, its re-keyable mark perhaps cleared. -/
def Entry.Spared (x y : Entry) : Prop := y = x ∨ y = x.unmark

theorem unmark_unmark (e : Entry) : e.unmark.unmark = e.unmark := by cases e with | mk k => cases k <;> rfl

theorem Entry.Spared.trans {x y z : Entry} (h : x.Spared y) (h' : y.Spared z) : x.Spared z := by
  obtain rfl | rfl := h
  · exact h'
  · obtain rfl | rfl := h'
    · exact .inr rfl
    · exact .inr (unmark_unmark x)

theorem Entry.Spared.kind_on {x y : Entry} (h : x.Spared y) {n : StationId} : y.kind = .on n ↔ x.kind = .on n := by
  obtain rfl | rfl := h
  · exact .rfl
  · exact unmark_kind_on

theorem Entry.Spared.fire {x y : Entry} (h : x.Spared y) : y.fire = x.fire := by
  obtain rfl | rfl := h
  · rfl
  · exact unmark_fire x

theorem spared_trans {xs ys zs : List Entry} (h : xs.SublistForall₂ Entry.Spared ys)
    (h' : ys.SublistForall₂ Entry.Spared zs) : xs.SublistForall₂ Entry.Spared zs :=
  have : IsTrans Entry Entry.Spared := ⟨fun _ _ _ => Entry.Spared.trans⟩
  IsTrans.trans _ _ _ h h'

/-- A part of one list within another, with the entries chosen by a property that the relation carries over. -/
theorem sublistForall_filter {R : Entry → Entry → Prop} {p q : Entry → Bool} (h : ∀ x y, R x y → p x = true → q y = true)
    {xs ys : List Entry} (hsub : xs.SublistForall₂ R ys) : (xs.filter p).SublistForall₂ R (ys.filter q) := by
  induction hsub with
  | nil => exact .nil
  | @cons x y xs ys hxy hsub ih =>
    rw [List.filter_cons, List.filter_cons]
    split
    next hp =>
      rw [if_pos (h x y hxy hp)]
      exact .cons hxy ih
    next hp =>
      split
      · exact .cons_right ih
      · exact ih
  | @cons_right y xs ys hsub ih =>
    rw [List.filter_cons]
    split
    · exact .cons_right ih
    · exact ih

theorem sublistForall_map {R : Entry → Entry → Prop} {f : Entry → Entry} (h : ∀ x, R x (f x)) (xs : List Entry) :
    xs.SublistForall₂ R (xs.map f) := by
  induction xs with
  | nil => exact .nil
  | cons x rest ih => exact .cons (h x) ih

theorem sublistForall_of_sublist {xs ys : List Entry} (h : xs.Sublist ys) : xs.SublistForall₂ Entry.Spared ys := by
  induction h with
  | slnil => exact .nil
  | cons y _ ih => exact .cons_right ih
  | cons_cons y _ ih => exact .cons (.inl rfl) ih

/-! ### A firing spares the rest of the list -/

/-- The entry is no ON entry of a station whose runtime state has changed. -/
def State.keeps (s t : State) (e : Entry) : Bool :=
  decide (∀ n : StationId, e.kind = .on n → t.stations[n].runtime = s.stations[n].runtime)

/-- Stations keep their runtime state, or fail. -/
def OnlyFail (s t : State) : Prop := ∀ n : StationId, t.stations[n].runtime = s.stations[n].runtime
  ∨ (s.stations[n].runtime = .enabled ∧ t.stations[n].runtime = .failed)

theorem OnlyFail.trans {s t u : State} (h : OnlyFail s t) (h' : OnlyFail t u) : OnlyFail s u := by
  intro n
  obtain h1 | ⟨h1, h2⟩ := h n
  · rw [← h1]
    exact h' n
  · obtain h3 | ⟨h3, -⟩ := h' n
    · exact .inr ⟨h1, h3.trans h2⟩
    · exact absurd (h2.symm.trans h3) (by simp)

/-- A station whose runtime state is the same in the end has kept it throughout. -/
theorem OnlyFail.keeps {s t u : State} (h : OnlyFail s t) (h' : OnlyFail t u) {x : Entry} (hx : s.keeps u x = true) :
    s.keeps t x = true ∧ t.keeps u x = true := by
  have hruntime (n : StationId) (hn : u.stations[n].runtime = s.stations[n].runtime) :
      t.stations[n].runtime = s.stations[n].runtime ∧ u.stations[n].runtime = t.stations[n].runtime := by
    obtain h1 | ⟨h1, h2⟩ := h n
    · exact ⟨h1, hn.trans h1.symm⟩
    · obtain h3 | ⟨h3, -⟩ := h' n
      · exact absurd (h1.symm.trans (hn.symm.trans (h3.trans h2))) (by simp)
      · exact absurd (h2.symm.trans h3) (by simp)
  simp only [State.keeps, decide_eq_true_eq] at hx ⊢
  exact ⟨fun n hn => (hruntime n (hx n hn)).1, fun n hn => (hruntime n (hx n hn)).2⟩

theorem keeps_congr {t u : State} {x y : Entry} (h : x.Spared y) (hx : t.keeps u x = true) : t.keeps u y = true := by
  simp only [State.keeps, decide_eq_true_eq] at hx ⊢
  exact fun n hn => hx n (h.kind_on.1 hn)

/-- What a firing keeps: stations only fail, the entries are spared but for the ON entries of those, and none comes to
stand at the belt. -/
structure Spares (s t : State) : Prop where
  position : t.position = s.position
  runtime : OnlyFail s t
  spared : (s.list.entries.filter (s.keeps t)).SublistForall₂ Entry.Spared t.list.entries
  due : t.list.entries.countP s.due ≤ s.list.entries.countP s.due

/-- Entries chosen among those that a firing keeps. -/
theorem Spares.filter {s t : State} (h : Spares s t) {p q : Entry → Bool} (hp : ∀ x, p x = true → s.keeps t x = true)
    (hpq : ∀ x y : Entry, x.Spared y → p x = true → q y = true) :
    (s.list.entries.filter p).SublistForall₂ Entry.Spared (t.list.entries.filter q) := by
  have hfilter : s.list.entries.filter p = (s.list.entries.filter (s.keeps t)).filter p := by
    rw [List.filter_filter]
    refine List.filter_congr fun x _ => ?_
    cases hx : p x with
    | false => rfl
    | true => simp [hp x hx]
  rw [hfilter]
  exact sublistForall_filter hpq h.spared

theorem Spares.trans {s t u : State} (h : Spares s t) (h' : Spares t u) : Spares s u := by
  refine ⟨h'.position.trans h.position, h.runtime.trans h'.runtime, ?_, ?_⟩
  · refine spared_trans (h.filter (q := t.keeps u) (fun x hx => (h.runtime.keeps h'.runtime hx).1) fun x y hxy hx => ?_)
      h'.spared
    exact keeps_congr hxy (h.runtime.keeps h'.runtime hx).2
  · have hle := h'.due
    rw [due_congr h.position] at hle
    exact hle.trans h.due

/-- No station changes its runtime state, and the list keeps its entries, with none new at the belt. -/
theorem spares_of {s t : State} (hp : t.position = s.position)
    (hr : ∀ n : StationId, t.stations[n].runtime = s.stations[n].runtime)
    (hl : s.list.entries.SublistForall₂ Entry.Spared t.list.entries)
    (hdue : t.list.entries.countP s.due ≤ s.list.entries.countP s.due) : Spares s t :=
  ⟨hp, fun n => .inl (hr n), spared_trans (sublistForall_of_sublist List.filter_sublist) hl, hdue⟩

theorem spares_of_same {s t : State} (hp : t.position = s.position)
    (hr : ∀ n : StationId, t.stations[n].runtime = s.stations[n].runtime) (hl : t.list.entries = s.list.entries) :
    Spares s t :=
  spares_of hp hr (by rw [hl]; exact sublistForall_of_sublist (.refl _)) (by rw [hl])

theorem Notes.spares {s t : State} (h : Notes s t) : Spares s t := by
  obtain ⟨hlist, -, hstations, hposition⟩ := h.parts
  exact spares_of_same hposition (fun n => by rw [hstations]) (by rw [hlist])

theorem spares_place {s : State} {e : Entry} (h : e.fire ≠ s.position.tracking) : Spares s (s.place e) := by
  refine spares_of rfl (fun _ => rfl) (sublistForall_of_sublist (sublist_insertEntry ..)) ?_
  rw [place_entries, insertEntry_countP, if_neg (by simpa [State.due] using h)]
  exact le_refl _

theorem spares_freeItem (s : State) (tag : Tag) : Spares s (s.freeItem tag) := by
  refine spares_of rfl (fun _ => rfl) (sublistForall_map (fun e => ?_) _) ?_
  · split
    · exact .inr rfl
    · exact .inl rfl
  · refine le_of_eq ((List.countP_map ..).trans (List.countP_congr fun e _ => ?_))
    simp only [Function.comp_apply, State.due]
    split
    · rw [unmark_fire]
    · rfl

theorem spares_updStation (s : State) (n : StationId) {f : Station → Station} (hf : ∀ x, (f x).runtime = x.runtime) :
    Spares s (s.updStation n f) :=
  spares_of_same rfl (fun m => upd_get_proj n m Station.runtime (hf _)) rfl

/-- A station that fails loses its ON entries. -/
theorem spares_failing {s : State} {n : StationId} (h : s.stations[n].runtime = .enabled) : Spares s (s.failing n) := by
  obtain ⟨hlist, hstations, -⟩ := failing_parts s n
  have hentries : (s.withdraw n .failed).list.entries = s.list.entries.filter (fun e => !e.isOnOf n) := rfl
  refine ⟨(frame_failing s n).position, fun m => ?_, ?_, ?_⟩
  · rw [hstations]
    by_cases hm : n = m
    · subst hm
      exact .inr ⟨h, withdraw_runtime s n .failed⟩
    · exact .inl (congrArg Station.runtime (upd_get_other (Ne.symm hm) _))
  · rw [hlist, hentries]
    refine sublistForall_of_sublist (List.monotone_filter_right _ fun e he => ?_)
    simp only [State.keeps, decide_eq_true_eq] at he
    by_contra hon
    have hkind : e.kind = .on n := by simpa [isOnOf_iff] using hon
    have := he n hkind
    rw [failing_runtime, h] at this
    cases this
  · rw [hlist, hentries, List.countP_filter]
    exact List.countP_mono_left fun e _ he => by simpa using (Bool.and_eq_true_iff.1 he).1

theorem spares_declareMissed (s : State) (n : StationId) (w : Watch) (aux : Word) : Spares s (s.declareMissed n w aux) := by
  have hnotes : Spares s (s.noteMiss n w aux) := by
    unfold State.noteMiss
    dsimp only
    refine Spares.trans (Notes.spares ?_) (spares_updStation _ n fun _ => rfl)
    split
    · exact notes_report ..
    · exact (notes_report ..).trans (notes_updItem _ w.tag fun _ => rfl)
  rw [declareMissed_eq]
  split
  next hlimit =>
    rw [failStation_eq]
    exact (hnotes.trans (spares_failing (atLimit_runtime hlimit))).trans (notes_report ..).spares
  next => exact hnotes

theorem spares_missHead (s : State) (n : StationId) (aux : Word) : Spares s (s.missHead n aux) := by
  unfold State.missHead
  split
  · exact spares_of_same rfl (fun _ => rfl) rfl
  next w rest h =>
    have hleft : Spares s (s.updStation n fun st => { st with watches := rest }) := spares_updStation s n fun _ => rfl
    exact hleft.trans (spares_declareMissed ..)

theorem spares_startWatch (s : State) (n : StationId) (tag : Tag) (l : LaneId) : Spares s (s.startWatch n tag l) := by
  have happend (t : State) : Spares t (t.appendWatch n tag l) := spares_updStation t n fun _ => rfl
  unfold State.startWatch
  dsimp only
  split
  · exact happend s
  · split
    · exact (spares_missHead s n 1).trans (happend _)
    · exact spares_missHead s n 1

theorem spares_markAndWatch (s : State) (n : StationId) (i : Item) : Spares s (s.markAndWatch n i) := by
  have hmark : Spares s (s.updItem i.tag fun x => { x with fired := x.fired ||| BitVec.twoPow 16 n.val }) :=
    Notes.spares (notes_updItem s i.tag fun _ => rfl)
  unfold State.markAndWatch
  dsimp only
  split
  · exact hmark
  · exact hmark.trans (spares_startWatch ..)

theorem spares_placeHolder {s t : State} {n : StationId} {fire : Pos} {i : Item} (hc : s.ConfigSound)
    (hfire : fire = s.position.tracking) (h : s.placeHolder n fire i = some t) : Spares s t := by
  obtain ⟨pos, r, rfl, hpos⟩ | rfl := placeHolder_cases h
  · refine spares_place fun heq => ?_
    have heq : pos = fire := Eq.trans heq hfire.symm
    have hdist := (holder_dist hc hpos).1
    rw [heq, dist_self] at hdist
    exact absurd hdist (by decide)
  · exact spares_updStation s n fun _ => rfl

/-- A due entry that has left the list is acted on: what is left of the list is spared. -/
theorem spares_fireEntry {s : State} {e : Entry} (hc : s.ConfigSound) (hfire : e.fire = s.position.tracking) :
    Spares s (s.fireEntry e) := by
  have hrefl : Spares s s := spares_of_same rfl (fun _ => rfl) rfl
  unfold State.fireEntry
  split
  · exact hrefl
  · exact (notes_fireDeadline ..).spares
  next n hk =>
    unfold State.fireOn
    split
    · exact hrefl
    · split
      · split
        · exact hrefl
        next placed hp => exact (spares_placeHolder hc hfire hp).trans (spares_markAndWatch ..)
      · exact hrefl
  · cases hf : s.findItem e.tag with
    | none =>
      rw [retireItem_none hf]
      exact hrefl
    | some i =>
      rw [retireItem_some hf]
      exact (notes_noteRetired s i).spares.trans (spares_freeItem ..)

/-! ### The firing of the due entries, whole -/

/-- What the firing of all due entries leaves (R71): none at the belt, and the others spared. -/
structure Fired (s t : State) : Prop where
  position : t.position = s.position
  runtime : OnlyFail s t
  spared : (s.list.entries.filter fun e => !s.due e && s.keeps t e).SublistForall₂ Entry.Spared t.list.entries
  none : ∀ e ∈ t.list.entries, s.due e = false

theorem fired_of_none {s : State} (h : ∀ e ∈ s.list.entries, s.due e = false) : Fired s s :=
  ⟨rfl, fun _ => .inl rfl, sublistForall_of_sublist List.filter_sublist, h⟩

/-- One due entry fired, and then the others. -/
theorem Fired.cons {s t : State} {e : Entry} {rest : List Entry} (ht : s.Takes s.due e rest)
    (h : Spares (s.left rest) ((s.left rest).fireEntry e)) (h' : Fired ((s.left rest).fireEntry e) t) : Fired s t := by
  obtain ⟨before, after, hentries, hrest, hdue, -⟩ := takeFirst_some ht
  have hdue' : ((s.left rest).fireEntry e).due = s.due := due_congr h.position
  refine ⟨h'.position.trans h.position, h.runtime.trans h'.runtime, ?_, ?_⟩
  · have hleft : (s.list.entries.filter fun e => !s.due e && s.keeps t e)
        = (s.left rest).list.entries.filter fun e => !s.due e && s.keeps t e := by
      change _ = rest.filter _
      rw [hentries, hrest, List.filter_append, List.filter_append, List.filter_cons, if_neg (by simp [hdue])]
    rw [hleft]
    have hkeeps (x : Entry) (hx : (!s.due x && s.keeps t x) = true) :
        s.due x = false ∧ (s.left rest).keeps ((s.left rest).fireEntry e) x = true
          ∧ ((s.left rest).fireEntry e).keeps t x = true := by
      obtain ⟨hx1, hx2⟩ := Bool.and_eq_true_iff.1 hx
      exact ⟨by simpa using hx1, h.runtime.keeps h'.runtime hx2⟩
    refine spared_trans (h.filter (fun x hx => (hkeeps x hx).2.1) fun x y hxy hx => ?_) h'.spared
    obtain ⟨hx1, -, hx2⟩ := hkeeps x hx
    rw [hdue', keeps_congr hxy hx2]
    simpa [State.due, hxy.fire] using hx1
  · rw [← hdue']
    exact h'.none

theorem fireDue_fired (fuel : Nat) {s : State} (hc : s.ConfigSound) (ho : s.control.op = .tracking)
    (h : s.list.entries.countP s.due ≤ fuel) : Fired s (State.fireDue fuel s) := by
  induction fuel generalizing s with
  | zero => exact fired_of_none fun e he => by simpa using List.countP_eq_zero.1 (Nat.le_zero.1 h) e he
  | succ fuel ih =>
    simp only [State.fireDue]
    split
    next hnone => exact fired_of_none (takeFirst_none.1 hnone)
    next e rest ht =>
      have hperm := (takeFirst_perm ht).countP_eq s.due
      obtain ⟨-, -, -, -, hdue, -⟩ := takeFirst_some ht
      rw [List.countP_cons, if_pos hdue] at hperm
      have hspares := spares_fireEntry (s := s.left rest) (e := e) ⟨hc.1, hc.2, hc.3⟩ (beq_iff_eq.1 hdue)
      have hworks := works_fireEntry (w := .list) ho ht
      have hle : ((s.left rest).fireEntry e).list.entries.countP s.due ≤ rest.countP s.due := hspares.due
      refine Fired.cons ht hspares (ih (kept_configSound.course hworks.course hc) (hworks.frame.op.trans ho) ?_)
      have hdue' : ((s.left rest).fireEntry e).due = s.due := due_congr hspares.position
      rw [hdue']
      omega

end Sys2Proof.Machine
end

section
/-! PROOFS. The belt and the list (O60), fifth part: a layer through chains of changes, an advance and a re-sampling. -/

namespace Sys2Proof.Machine

variable {P : Bool → Bool → State → Prop} {due moving : Bool}

/-- What is held after a stretch of work: the layer, and every capture that was held before. -/
structure Holds (P : State → Prop) (s t : State) : Prop where
  layer : P t
  held : ∀ k l, s.HeldAt k l → t.HeldAt k l

theorem Holds.refl {P : State → Prop} {s : State} (h : P s) : Holds P s s := ⟨h, fun _ _ => id⟩

theorem Holds.trans {P Q : State → Prop} {s t u : State} (h : Holds P s t) (h' : Holds Q t u) : Holds Q s u :=
  ⟨h'.layer, fun k l hl => h'.held k l (h.held k l hl)⟩

theorem Layer.works (hL : Layer P) {w : Worker} {s t : State} (h : Works w s t) (hs : P due moving s)
    (hheld : w = .advance → ∀ l, s.HeldAt 1 l) : Holds (P due moving) s t := by
  induction h with
  | refl => exact .refl hs
  | tail _ hwork ih =>
    exact ih.trans ⟨hL.work hwork ih.layer fun hw l => ih.held 1 l (hheld hw l),
      fun _ _ hl => hwork.heldAt (hL.ahead ih.layer).filters hl⟩

theorem Layer.settling (hL : Layer P) {s t : State} (h : Settles s t) (hs : P due moving s) : Holds (P due moving) s t :=
  ⟨hL.settles h hs, fun _ _ hl => h.heldAt hl⟩

theorem Layer.chain (hL : Layer P) {s t : State} (h : Chain s t) (hs : P due moving s) (hheld : ∀ l, s.HeldAt 1 l) :
    Holds (P due moving) s t := by
  induction h with
  | refl => exact .refl hs
  | tail _ hstep ih =>
    refine ih.trans ?_
    obtain ⟨w, hwork⟩ | hsettles := hstep
    · exact hL.works (.single hwork) ih.layer fun _ l => ih.held 1 l (hheld l)
    · exact hL.settling hsettles ih.layer

/-! ### The list takes the advance -/

theorem Layer.listAdvance (hL : Layer P) {s : State} (hs : P true moving s) (hheld : ∀ l, s.HeldAt 1 l) :
    Holds (P false moving) s s.listAdvance := by
  have hworks := works_listAdvance .list s
  have hholds := hL.chain hworks.chain hs hheld
  refine ⟨hL.fired (fun e he hr heq => ?_) hholds.layer, hholds.held⟩
  rw [hworks.frame.position] at heq
  have hdue : s.due e = true := by simpa [State.due] using heq
  unfold State.listAdvance at he
  split at he
  next ho =>
    rw [(hL.ahead hs).setup ho] at he
    cases he
  next ho =>
    have hfired := fireDue_fired s.list.entries.length (hL.ahead hs).config ho List.countP_le_length
    rw [hfired.none e he] at hdue
    cases hdue
  next ho =>
    obtain ⟨x, hx, rfl⟩ := List.mem_map.1 he
    split at hr
    · cases hr
    next hx' =>
      rw [if_neg hx'] at hdue
      exact hx' hdue

/-! ### The pieces of work of an advance end -/

/-- The number of ENABLED stations. -/
def State.enabledCount (s : State) : Nat := (Finset.univ.filter fun n : StationId => s.stations[n].runtime = .enabled).card

theorem enabledCount_le (s : State) : s.enabledCount ≤ 16 := by
  refine (Finset.card_le_univ _).trans ?_
  simp

theorem enabledCount_mono {s t : State} (h : ∀ n : StationId, t.stations[n].runtime = .enabled → s.stations[n].runtime = .enabled) :
    t.enabledCount ≤ s.enabledCount :=
  Finset.card_le_card fun n hn => by
    simp only [Finset.mem_filter, Finset.mem_univ, true_and] at hn ⊢
    exact h n hn

theorem enabledCount_failing {s : State} {n : StationId} (h : s.stations[n].runtime = .enabled) :
    (s.failing n).enabledCount < s.enabledCount := by
  refine Finset.card_lt_card (Finset.ssubset_iff_subset_ne.2 ⟨fun m hm => ?_, fun heq => ?_⟩)
  · simp only [Finset.mem_filter, Finset.mem_univ, true_and] at hm ⊢
    exact (Work.fail (w := .list) n h).enabled_of hm
  · have hmem : n ∈ Finset.univ.filter fun n : StationId => s.stations[n].runtime = .enabled := by simpa using h
    rw [← heq] at hmem
    simp only [Finset.mem_filter, Finset.mem_univ, true_and, failing_runtime] at hmem
    cases hmem

/-- Requests on their way, and those that stations may still raise. -/
def State.demand (s : State) : Nat := s.control.requests.length + s.enabledCount

theorem Settles.enabled_of {s t : State} (h : Settles s t) (n : StationId) :
    t.stations[n].runtime = s.stations[n].runtime := by
  cases h with
  | halt c ho =>
    change (mapAll _ s.stations)[n].runtime = _
    rw [mapAll_get]
  | again c ho => rfl
  | book => rfl

theorem Chain.enabledCount_le {s t : State} (h : Chain s t) : t.enabledCount ≤ s.enabledCount := by
  induction h with
  | refl => exact le_refl _
  | tail _ hstep ih =>
    refine le_trans ?_ ih
    obtain ⟨w, hwork⟩ | hsettles := hstep
    · exact enabledCount_mono fun n => hwork.enabled_of
    · exact enabledCount_mono fun n hn => (hsettles.enabled_of n).symm.trans hn

theorem Works.demand_le {s t : State} (h : Works .list s t) : t.demand ≤ s.demand := by
  induction h with
  | refl => exact le_refl _
  | @tail u v _ hwork ih =>
    refine le_trans ?_ ih
    unfold State.demand
    obtain heq | ⟨n, hn, rfl⟩ := hwork.requests_or_fails
    · rw [heq]
      exact Nat.add_le_add_left (enabledCount_mono fun n => hwork.enabled_of) _
    · have hlt := enabledCount_failing hn
      have hrequests : (u.failing n).control.requests.length ≤ u.control.requests.length + 1 := by
        unfold State.failing
        split
        · rw [requestHalt_requests, List.length_append, List.length_singleton]
          exact le_refl _
        · exact Nat.le_succ _
      omega

/-- A piece of work raises few requests: a lane one, the list one for each station that fails. -/
theorem runTask_demand (s : State) (task : Task) :
    (s.runTask task).demand ≤ s.demand + if task.cause.isNone then 1 else 0 := by
  have hchain := (chain_runTask s task).enabledCount_le
  cases task with
  | lane l =>
    have hrequests : (s.laneAdvance l).control.requests.length ≤ s.control.requests.length + 1 := by
      obtain heq | ⟨-, heq⟩ := laneAdvance_requests s l
      · rw [heq]
        exact Nat.le_succ _
      · rw [heq, List.length_append, List.length_singleton]
    change (s.laneAdvance l).control.requests.length + (s.laneAdvance l).enabledCount
      ≤ s.control.requests.length + s.enabledCount + 1
    change (s.laneAdvance l).enabledCount ≤ _ at hchain
    omega
  | list => exact (works_listAdvance .list s).demand_le.trans (Nat.le_succ _)
  | pulse n => exact (works_endPulse .list s n).demand_le.trans (Nat.le_succ _)
  | halt c =>
    change (s.takeHalt c).control.requests.length + _ ≤ s.control.requests.length + s.enabledCount
    rw [takeHalt_requests]
    exact Nat.add_le_add_left hchain _

/-- The pieces and requests left when one is taken: a piece counts twice, for the request it may raise. -/
theorem taken_load {candidates rest : List Task} {task : Task} (h : candidates.Perm (task :: rest)) :
    2 * (rest.filter fun t => t.cause.isNone).length + (rest.filterMap Task.cause).length
        + (if task.cause.isNone then 2 else 1)
      = 2 * (candidates.filter fun t => t.cause.isNone).length + (candidates.filterMap Task.cause).length := by
  have hfilter := (h.filter fun t => t.cause.isNone).length_eq
  have hcauses := (h.filterMap Task.cause).length_eq
  rw [List.filter_cons] at hfilter
  rw [List.filterMap_cons] at hcauses
  cases hc : task.cause with
  | none =>
    simp only [hc, Option.isNone_none, if_true, List.length_cons] at hfilter hcauses ⊢
    omega
  | some c =>
    simp only [hc, Option.isNone_some, Bool.false_eq_true, if_false, List.length_cons] at hfilter hcauses ⊢
    omega

/-- The state an advance is in while `work` is left of its pieces: the list is due while its piece is left, and the
captures of the other lanes are held. -/
structure Advancing (P : Bool → Bool → State → Prop) (work : List Task) (s : State) : Prop where
  layer : P (decide (Task.list ∈ work)) true s
  near : ∀ l, s.HeldAt 1 l
  held : ∀ l, Task.lane l ∉ work → s.HeldAt 0 l

/-- One piece of the work is done. -/
theorem Layer.runTask (hL : Layer P) {work rest : List Task} {task : Task} {s : State} (hs : Advancing P work s)
    (hwork : ∀ x ∈ work, x = task ∨ x ∈ rest) (hrest : ∀ x ∈ rest, x ∈ work) :
    Advancing P rest (s.runTask task) := by
  have hchain := hL.chain (chain_runTask s task) hs.layer hs.near
  refine ⟨?_, fun l => hchain.held 1 l (hs.near l), fun l hl => ?_⟩
  · by_cases hmem : Task.list ∈ rest
    · rw [decide_eq_true hmem]
      have hlayer := hchain.layer
      rwa [decide_eq_true (hrest _ hmem)] at hlayer
    · rw [decide_eq_false hmem]
      by_cases hlist : Task.list ∈ work
      · obtain rfl := (hwork _ hlist).resolve_right hmem
        have hlayer := hs.layer
        rw [decide_eq_true hlist] at hlayer
        exact (hL.listAdvance hlayer hs.near).layer
      · have hlayer := hchain.layer
        rwa [decide_eq_false hlist] at hlayer
  · by_cases hlane : Task.lane l ∈ work
    · obtain rfl := (hwork _ hlane).resolve_right hl
      exact laneAdvance_heldAt (hs.near l)
    · exact hchain.held 0 l (hs.held l hlane)

theorem Layer.runTasks (hL : Layer P) (fuel : Nat) {work : List Task} {s : State} (hs : Advancing P work s)
    (hnone : ∀ x ∈ work, x.cause = none) (hfuel : 2 * work.length + s.demand ≤ fuel) :
    Advancing P [] (State.runTasks fuel work s) := by
  induction fuel generalizing work s with
  | zero =>
    obtain rfl : work = [] := List.length_eq_zero_iff.1 (by omega)
    exact hs
  | succ fuel ih =>
    cases work with
    | nil => exact hs
    | cons x work =>
      have hfilter : (s.candidates (x :: work)).filter (fun t => t.cause.isNone) = x :: work := by
        rw [State.candidates, List.filter_append, List.filter_eq_self.2 fun y hy => by simp [hnone y hy],
          List.filter_eq_nil_iff.2 fun y hy => ?_, List.append_nil]
        obtain ⟨c, -, rfl⟩ := List.mem_map.1 hy
        simp [Task.cause]
      have hcauses : (s.candidates (x :: work)).filterMap Task.cause = s.control.requests := by
        rw [State.candidates, List.filterMap_append, List.filterMap_eq_nil_iff.2 fun y hy => hnone y hy, List.nil_append,
          List.filterMap_map]
        exact List.filterMap_some
      simp only [State.runTasks]
      split
      next hpick =>
        have hsome := pick_isSome (Config.choice s.choices) (s.candidates (x :: work))
        rw [hpick] at hsome
        simp [State.candidates] at hsome
      next task rest hpick =>
        have hperm := pick_perm hpick
        have hload := taken_load hperm
        rw [hfilter, hcauses] at hload
        have hbook : Chain s ((s.countChoice (s.candidates (x :: work))).withRequests (rest.filterMap Task.cause)) :=
          (chain_countChoice ..).trans (chain_withRequests ..)
        have hdemand := runTask_demand ((s.countChoice (s.candidates (x :: work))).withRequests (rest.filterMap Task.cause))
          task
        have henabled := hbook.enabledCount_le
        have hheld := hL.chain hbook hs.layer hs.near
        have hadvancing : Advancing P (x :: work) _ :=
          ⟨hheld.layer, fun l => hheld.held 1 l (hs.near l), fun l hl => hheld.held 0 l (hs.held l hl)⟩
        have hmem (y : Task) (hy : y.cause = none) : y ∈ x :: work ↔ y = task ∨ y ∈ rest.filter fun t => t.cause.isNone := by
          rw [← hfilter, List.mem_filter, List.mem_filter, hperm.mem_iff, List.mem_cons]
          simp [hy]
        refine ih (hL.runTask hadvancing (fun y hy => (hmem y (hnone y hy)).1 hy) fun y hy => ?_) (fun y hy => ?_) ?_
        · exact (hmem y (by simpa using (List.mem_filter.1 hy).2)).2 (.inr hy)
        · simpa using (List.mem_filter.1 hy).2
        · have hsum : State.demand ((s.countChoice (s.candidates (x :: work))).withRequests (rest.filterMap Task.cause))
              ≤ (rest.filterMap Task.cause).length + s.enabledCount := Nat.add_le_add_left henabled _
          have hsplit : s.demand = s.control.requests.length + s.enabledCount := rfl
          by_cases hn : task.cause.isNone = true
          · rw [if_pos hn] at hdemand hload
            omega
          · rw [if_neg hn] at hdemand hload
            omega

/-! ### An advance, whole -/

theorem advanceTasks_cause {s : State} {task : Task} (h : task ∈ s.advanceTasks) : task.cause = none := by
  unfold State.advanceTasks at h
  obtain h | h := List.mem_append.1 h
  · obtain ⟨l, -, rfl⟩ := List.mem_map.1 h
    rfl
  · split at h
    · obtain rfl := List.mem_singleton.1 h
      rfl
    · cases h

theorem advanceTasks_length (s : State) : s.advanceTasks.length ≤ 5 := by
  have hlanes : (laneIds.filter s.laneDue).length ≤ 4 := List.length_filter_le ..
  unfold State.advanceTasks
  rw [List.length_append, List.length_map]
  split
  · rw [List.length_singleton]
    omega
  · rw [List.length_nil]
    omega

theorem lane_mem_advanceTasks {s : State} {l : LaneId} : Task.lane l ∈ s.advanceTasks ↔ s.laneDue l = true := by
  unfold State.advanceTasks
  split <;> simp

theorem list_mem_advanceTasks {s : State} : Task.list ∈ s.advanceTasks ↔ ∃ e ∈ s.list.entries, s.due e = true := by
  unfold State.advanceTasks
  split
  next h => simpa using h
  next h => simpa using h

/-- The blocks take the advance, and the firing point follows. -/
theorem Layer.takeAdvance (hL : Layer P) {s : State} (hs : P true true s) (hheld : ∀ l, s.HeldAt 1 l)
    (hr : s.control.requests = []) : P false false s.takeAdvance ∧ ∀ l, s.takeAdvance.HeldAt 0 l := by
  have hstart : Advancing P s.advanceTasks s := by
    refine ⟨?_, hheld, fun l hl => heldAt_of_not_due (hheld l) ?_⟩
    · by_cases hlist : Task.list ∈ s.advanceTasks
      · rwa [decide_eq_true hlist]
      · rw [decide_eq_false hlist]
        refine hL.fired (fun e he _ heq => hlist (list_mem_advanceTasks.2 ⟨e, he, ?_⟩)) hs
        simpa [State.due] using heq
    · rw [lane_mem_advanceTasks] at hl
      simpa using hl
  have hdone := hL.runTasks taskFuel hstart (fun x hx => advanceTasks_cause hx) (by
    have hlength := advanceTasks_length s
    have henabled := enabledCount_le s
    unfold State.demand
    rw [hr, List.length_nil]
    unfold taskFuel
    omega)
  have hlayer : P false true (State.runTasks taskFuel s.advanceTasks s) := hdone.layer
  have hfree (l : LaneId) : (State.runTasks taskFuel s.advanceTasks s).HeldAt 0 l := hdone.held l (by simp)
  unfold State.takeAdvance State.settleTracking
  split
  next ho => exact ⟨hL.still (ho.trans_ne (by simp)) hlayer, hfree⟩
  next ho => exact ⟨hL.settle ho hlayer, hfree⟩
  next ho => exact ⟨hL.still (ho.trans_ne (by simp)) hlayer, hfree⟩

/-! ### Re-sampling, whole -/

/-- The state a re-sampling is in while the lanes `todo` are left: the captures of the others are held. -/
structure Resampling (P : Bool → Bool → State → Prop) (todo : List LaneId) (s : State) : Prop where
  layer : P false false s
  held : ∀ l, l ∉ todo → s.HeldAt 0 l

theorem Layer.laneResample (hL : Layer P) {todo rest : List LaneId} {l : LaneId} {s : State} (hs : Resampling P todo s)
    (htodo : ∀ m ∈ todo, m = l ∨ m ∈ rest) : Resampling P rest (s.laneResample l) := by
  have hholds := hL.works (works_laneResample s l) hs.layer fun h => nomatch h
  refine ⟨hholds.layer, fun m hm => ?_⟩
  by_cases hmem : m ∈ todo
  · obtain rfl := (htodo m hmem).resolve_right hm
    exact laneResample_heldAt (hL.ahead hs.layer).filters m
  · exact hholds.held 0 m (hs.held m hmem)

theorem Layer.foldResample (hL : Layer P) (xs : List LaneId) {todo : List LaneId} {s : State}
    (hs : Resampling P (xs ++ todo) s) : Resampling P todo (xs.foldl State.laneResample s) := by
  induction xs generalizing s with
  | nil => exact hs
  | cons l rest ih => exact ih (hL.laneResample hs fun m hm => List.mem_cons.1 hm)

theorem settles_countChoice {α : Type} (s : State) (xs : List α) : Settles s (s.countChoice xs) := by
  unfold State.countChoice
  split
  · exact .book s.control.requests s.host s.readData (s.choices + 1) s.pending
  · exact .book s.control.requests s.host s.readData s.choices s.pending

theorem Layer.freeResample (hL : Layer P) (fuel : Nat) {todo : List LaneId} {s : State} (hs : Resampling P todo s)
    (hfuel : todo.length ≤ fuel) : Resampling P [] (inFreeOrder (fun l t => State.laneResample t l) fuel todo s) := by
  induction fuel generalizing todo s with
  | zero =>
    obtain rfl : todo = [] := List.length_eq_zero_iff.1 (Nat.le_zero.1 hfuel)
    exact hs
  | succ fuel ih =>
    simp only [inFreeOrder]
    split
    next hpick =>
      have hsome := pick_isSome (Config.choice s.choices) todo
      rw [hpick] at hsome
      obtain rfl : todo = [] := by simpa using hsome
      exact hs
    next l rest hpick =>
      have hperm := pick_perm hpick
      have hcount := hL.settling (settles_countChoice s todo) hs.layer
      refine ih (hL.laneResample ⟨hcount.layer, fun m hm => hcount.held 0 m (hs.held m hm)⟩ fun m hm => ?_) ?_
      · exact List.mem_cons.1 (hperm.mem_iff.1 hm)
      · have hlength := hperm.length_eq
        rw [List.length_cons] at hlength
        omega

/-- The lanes re-sample, one after another: each capture is then held. -/
theorem Layer.resampleAll (hL : Layer P) {s : State} (hs : P false false s) :
    P false false s.resampleAll ∧ ∀ l, s.resampleAll.HeldAt 0 l := by
  have hstart : Resampling P (laneIds.filter (fun l => !s.resampleShares l) ++ laneIds.filter s.resampleShares) s := by
    refine ⟨hs, fun l hl => absurd ?_ hl⟩
    have hall : l ∈ laneIds := List.mem_finRange l
    cases h : s.resampleShares l <;> simp [hall, h]
  have hdone := hL.freeResample _ (hL.foldResample _ hstart) (le_refl _)
  exact ⟨hdone.layer, fun l => hdone.held l (by simp)⟩

end Sys2Proof.Machine
end

section
/-! PROOFS. The belt and the list (O60), last part: what each command and each step does to a layer. -/

namespace Sys2Proof.Machine

variable {P : Bool → Bool → State → Prop}

/-- A layer with the captures close to the belt: what holds between steps. -/
structure Stands (P : Bool → Bool → State → Prop) (s : State) : Prop where
  layer : P false false s
  held : ∀ l, s.HeldAt 0 l

theorem Layer.standsChain (hL : Layer P) {s t : State} (h : Chain s t) (hs : Stands P s) : Stands P t := by
  have hholds := hL.chain h hs.layer fun l => (hs.held l).mono
  exact ⟨hholds.layer, fun l => hholds.held 0 l (hs.held l)⟩

theorem Layer.standsWorks (hL : Layer P) {w : Worker} {s t : State} (h : Works w s t) (hs : Stands P s) : Stands P t :=
  hL.standsChain h.chain hs

/-- A turn of a step that leaves the captures as they were. -/
theorem Layer.standsTurn (hL : Layer P) {s t : State} (h : Turn s t) (hs : Stands P s)
    (hstay : t.position.tracking = s.position.tracking ∨ s.control.op = .setup ∨ t.control.op = .setup)
    (hheld : ∀ l, t.HeldAt 0 l) : Stands P t := ⟨hL.turn h hstay hs.layer, hheld⟩

/-- A turn within SETUP, or into it. -/
theorem Layer.standsSetup (hL : Layer P) {s t : State} (h : Turn s t) (hs : Stands P s) (ht : t.control.op = .setup) :
    Stands P t :=
  hL.standsTurn h hs (.inr (.inr ht)) fun _ => heldAt_of_not_tracking (ht.trans_ne (by simp))

/-- A turn that changes neither the positions nor the lanes nor the DET pins. -/
theorem Layer.standsStill (hL : Layer P) {s t : State} (h : Turn s t) (hs : Stands P s)
    (ho : t.control.op = .tracking → s.control.op = .tracking) (ht : t.position.tracking = s.position.tracking)
    (hc : t.position.counter = s.position.counter) (hl : t.lanes = s.lanes) (hp : t.pins.det = s.pins.det) : Stands P t :=
  hL.standsTurn h hs (.inl ht) fun l =>
    heldAt_congr (hs.held l) ho ht hc (by rw [hl]) (by rw [hl]) (by rw [hp])

/-! ### The encoder -/

theorem Layer.standsPair (hL : Layer P) {s : State} (a b : Level) (hs : Stands P s) : Stands P (s.atPair a b) :=
  hL.standsStill (.pair a b) hs id rfl rfl rfl rfl

theorem Layer.standsAdvance (hL : Layer P) {s : State} (hs : Stands P s) (hr : s.control.requests = []) :
    Stands P s.stepped.takeAdvance := by
  obtain ⟨hlayer, hheld⟩ := hL.takeAdvance (hL.stepped hs.layer) (fun l => stepped_heldAt (hs.held l)) hr
  exact ⟨hlayer, hheld⟩

theorem heldAt_of_retravel {s : State} {k : Nat} {l : LaneId} (h : s.reverse ≠ 0) : s.HeldAt k l := fun _ hr => absurd hr h

/-- A step in which the tracking position stays: where detection comes back the lanes re-sample. -/
theorem Layer.standsMoveCounter (hL : Layer P) {s : State} (counter : Pos) (ho : s.control.op ≠ .setup)
    (hs : Stands P s) : Stands P (s.moveCounter counter) := by
  have hlayer := hL.turn (.shift counter ho) (.inl rfl) hs.layer
  unfold State.moveCounter
  dsimp only
  split
  next =>
    obtain ⟨hresampled, hheld⟩ := hL.resampleAll hlayer
    exact ⟨hresampled, hheld⟩
  next hregain =>
    refine ⟨hlayer, fun l hop hr => ?_⟩
    have hzero : s.reverse = 0 := by
      by_contra hne
      have hop : s.control.op = .tracking := hop
      exact hregain (by simpa [hr, hop] using hne)
    have hcounter : counter = s.position.counter := by
      have h1 := sub_eq_zero.1 hr
      have h2 := sub_eq_zero.1 hzero
      exact h1.symm.trans h2
    exact heldAt_congr (hs.held l) id rfl hcounter rfl rfl rfl hop hr

theorem Layer.standsError (hL : Layer P) {s : State} (hs : Stands P s) : Stands P s.encoderError := by
  have hcount := hL.standsStill (.note (s.position.errors + 1) s.position.posHigh s.position.trackHigh) hs id rfl rfl rfl rfl
  unfold State.encoderError
  split
  next => exact hcount
  next ho => exact hL.standsChain (chain_withRequests _ (s.control.requests ++ [.encoder])) hcount
  next ho =>
    refine hL.standsChain ?_ hcount
    exact Settles.chain (.again .encoder ho)

/-! ### RESUME -/

theorem Layer.standsResume (hL : Layer P) {s : State} (ho : s.control.op = .halted) (hhld : s.control.hldAsserted = false)
    (hs : Stands P s) : Stands P s.resumeRun.state := by
  have hloop := works_catchUpLoop .list s.list.entries.length 0 0 s
  have hunreached := catchUpLoop_unreached s.list.entries.length 0 0 s (le_refl _)
  have hreport := (notes_report (State.catchUpLoop s.list.entries.length 0 0 s).1 .resumed 0 0
    (BitVec.ofNat 16 s.catchUp.2.1) (BitVec.ofNat 16 s.catchUp.2.2))
  have hworks : Works .list s _ := hloop.trans (hreport.works .list)
  have hcaught := hL.standsWorks hworks hs
  have hresumed := hL.turn (.resume (hworks.frame.op.trans ho) (hworks.frame.hldAsserted.trans hhld)
    (by rwa [hreport.parts.1])) (.inl rfl) hcaught.layer
  change Stands P (((s.catchUp.1.reportResumed s.catchUp.2.1 s.catchUp.2.2).enterTracking).resumeSampling.resumeOverReverse)
  rw [show s.catchUp.1 = (State.catchUpLoop s.list.entries.length 0 0 s).1.settleFiringPoint from rfl,
    reportResumed_enterTracking]
  refine hL.standsChain (chain_resumeOverReverse _) ?_
  unfold State.resumeSampling
  split
  next =>
    obtain ⟨hlayer, hheld⟩ := hL.resampleAll hresumed
    exact hL.standsChain (chain_settleHalts _) ⟨hlayer, hheld⟩
  next hr => exact ⟨hresumed, fun l => heldAt_of_retravel hr⟩

/-! ### Every deed -/

theorem Layer.standsInput (hL : Layer P) {s : State} {l : LaneId} {level : Level} (hl : s.pins.det[l] ≠ level)
    (hs : Stands P s) : Stands P ((s.setDet l level).laneInput l) := by
  have hworks := works_laneInput (s.setDet l level) l
  have hholds := hL.works hworks (hL.turn (.det l level) (.inl rfl) hs.layer) fun h => nomatch h
  refine ⟨hholds.layer, fun m => ?_⟩
  by_cases hm : m = l
  · subst hm
    exact laneInput_heldAt (hs.held m) hl
  · exact hholds.held 0 m (heldAt_congr (hs.held m) id rfl rfl rfl rfl (upd_get_other hm _))

theorem Layer.standsDeed (hL : Layer P) {c : Instr} {s t : State} (h : Deed c s t) (hr : s.control.requests = [])
    (hs : Stands P s) : Stands P t := by
  cases h with
  | quiet h hr => exact hL.standsWorks h hs
  | expiry n => exact hL.standsWorks (works_missHead .list s n 0) hs
  | edge input rising h hr =>
    exact hL.standsWorks h (hL.standsStill (.confirm input rising) hs id rfl rfl rfl rfl)
  | input l level hl => exact hL.standsInput hl hs
  | holdAgain hhld =>
    have hturn := Turn.hld (s := s) false (fun _ _ => hhld)
    rw [show s.setHld false = (s.setHld false).sampleHld (!false) by rw [State.sampleHld, Bool.not_false, ← hhld]; rfl]
    exact hL.standsStill hturn hs id rfl rfl rfl rfl
  | hold hhld =>
    have hstay (ho : s.control.op ≠ .tracking) : Stands P ((s.setHld false).sampleHld true) :=
      hL.standsStill (.hld false fun _ h => absurd h ho) hs id rfl rfl rfl rfl
    unfold State.takeHalt
    split
    next ho => exact hstay (Eq.trans_ne (show s.control.op = .setup from ho) (by simp))
    next ho =>
      obtain ⟨-, -, hposition, -⟩ := haltTaken_parts ((s.setHld false).sampleHld true) .holdInput
      rw [haltEntry_eq]
      refine hL.standsChain ((Works.chain (Notes.works .list (notes_report ..))).trans (chain_raiseInt ..))
        (hL.standsTurn (.holdHalt (s := s) ho) hs (.inl (by rw [hposition]; rfl)) fun l => ?_)
      exact heldAt_of_not_tracking (by simp [State.haltTaken])
    next ho =>
      refine hL.standsChain (Settles.chain (.again .holdInput ho)) (hstay ?_)
      exact Eq.trans_ne (show s.control.op = .halted from ho) (by simp)
  | release => exact hL.standsStill (.hld true fun h => nomatch h) hs id rfl rfl rfl rfl
  | noStep a b => exact hL.standsPair a b hs
  | error a b => exact hL.standsError (hL.standsPair a b hs)
  | setupStep a b counter ho => exact hL.standsSetup (.setupMove counter ho) (hL.standsPair a b hs) ho
  | advance a b ho hrev => exact hL.standsAdvance (hL.standsPair a b hs) hr
  | shift a b counter ho => exact hL.standsMoveCounter counter ho (hL.standsPair a b hs)
  | overReverse a b counter ho =>
    refine hL.standsChain (chain_withRequests _ (_ ++ [.overReverse]))
      (hL.standsMoveCounter counter ?_ (hL.standsPair a b hs))
    exact Eq.trans_ne ho (by simp)
  | latch posHigh trackHigh => exact hL.standsStill (.note s.position.errors posHigh trackHigh) hs id rfl rfl rfl rfl
  | popWord =>
    obtain ⟨events, heq⟩ := popEventWord_parts s
    refine hL.standsStill .popWord hs ?_ ?_ ?_ ?_ ?_
    all_goals rw [heq]
    exact id
  | rewind => exact hL.standsStill .rewind hs id rfl rfl rfl rfl
  | threshold value => exact hL.standsStill (.threshold value) hs id rfl rfl rfl rfl
  | globals g ho hg => exact hL.standsSetup (.globals g ho hg) hs ho
  | laneConfig l c ho hc => exact hL.standsSetup (.laneConfig l c ho hc) hs ho
  | stationConfig n c ho hc => exact hL.standsSetup (.stationConfig n c ho hc) hs ho
  | output o f ho hf => exact hL.standsSetup (.output o f ho hf) hs ho
  | preset value ho => exact hL.standsSetup (.setupMove value ho) hs ho
  | start hrun ho hhld hchecks =>
    refine hL.standsTurn (.start hrun ho hhld hchecks) hs (.inr (.inl ho)) fun l =>
      heldAt_of_not_filtering fun capture => ?_
    rw [beginTracking_lane]
    unfold Lane.started
    dsimp only
    split
    · split <;> simp
    · simp
  | stop ho => exact hL.standsSetup .stop hs rfl
  | reinit => exact hL.standsSetup (.clear rfl) (hL.standsSetup .stop hs rfl) rfl
  | halt ho => exact hL.standsChain (chain_takeHalt s .host) hs
  | resume ho hhld => exact hL.standsResume ho hhld hs
  | clearFailed n ho hrun => exact hL.standsStill (.clearFailed n ho hrun) hs id rfl rfl rfl rfl
  | switchOn n ho hchecks => exact hL.standsStill (.switchOn n ho hchecks) hs id rfl rfl rfl rfl

/-! ### Every step -/

theorem Layer.standsIdle (hL : Layer P) {s : State} (power : Power) (p : Pins) (hr : s.running = false)
    (hr' : State.running { s with power := power, pins := p } = false) (hs : Stands P s) :
    Stands P { s with power := power, pins := p } :=
  ⟨hL.idle s power p hr hr' hs.layer, fun _ =>
    heldAt_of_not_tracking (Eq.trans_ne (show s.control.op = .setup from (hL.ahead hs.layer).running hr) (by simp))⟩

theorem Layer.standsRuns (hL : Layer P) {c : Instr} {s t : State} (h : Runs c s t) (hs : Stands P s) : Stands P t := by
  obtain ⟨-, u, ⟨v, hdeed, hwindow⟩, rfl⟩ | ⟨hrun, p, readData, hp, rfl⟩ := h
  · have hv := hL.standsDeed hdeed rfl (hL.standsChain (chain_withRequests s []) hs)
    exact hL.standsChain ((hwindow.chain.trans (chain_withRequests u _)).trans (chain_arriveHalts _)) hv
  · refine hL.standsChain (Settles.chain (.book s.control.requests s.host readData s.choices s.pending))
      (hL.standsIdle s.power p hrun ?_ hs)
    change (s.power == .on && p.resetN) = false
    rw [hp]
    exact hrun

theorem Layer.keptByStep (hL : Layer P) : KeptByStep (Stands P) := by
  intro s t hs h
  cases hp : s.pending with
  | nil =>
    rw [step_nil hp] at h
    obtain rfl := Host.Outcome.next.inj h
    by_cases hr : s.running = true
    · obtain ⟨phase, hchain⟩ := clockPeriod_chain hr
      refine hL.standsChain hchain ?_
      exact hL.standsStill (.phase phase) (hL.standsChain (chain_arriveHalts s) hs) id rfl rfl rfl rfl
    · rw [State.clockPeriod, if_neg hr]
      exact hs
  | cons c rest =>
    rw [step_cons hp] at h
    have hrest : Stands P { s with pending := rest } :=
      hL.standsChain (Settles.chain (.book s.control.requests s.host s.readData s.choices rest)) hs
    by_cases hreset : isResetCommand c = true
    · cases exec_reset hreset h with
      | idle power p hr hr' => exact hL.standsIdle power p hr hr' hrest
      | blocks p power powerOn =>
        exact ⟨hL.blocks .., fun _ => heldAt_of_not_tracking (Eq.trans_ne (b := OpState.setup) rfl (by simp))⟩
      | arrivals hr =>
        rw [State.amid, if_pos hr]
        exact hL.standsChain ((chain_withRequests _ []).trans ((chain_withRequests _ _).trans (chain_arriveHalts _))) hrest
    · exact hL.standsRuns (exec_runs (by simpa using hreset) h) hrest

/-! ### The three invariants -/

theorem listInOrder_iff {s : State} : s.ListInOrder ↔ s.ListAheadOfTheBelt ∧ s.Ordered false false := by
  constructor
  · intro h
    exact ⟨h.belt, h.order, h.near, fun ho => (h.tracking ho).symm, fun ho e he hr => .inl (h.halted ho e he hr)⟩
  · rintro ⟨hbelt, h⟩
    exact ⟨hbelt, h.order, h.near, fun ho => (h.tracking ho).symm,
      fun ho e he hr => (h.halted ho e he hr).resolve_right (by simp)⟩

/-- Settles O60. -/
theorem nothingStandsBehindTheBelt : Obligations.NothingStandsBehindTheBelt := by
  refine ⟨fun s t hs h => ?_, fun s t hs h => ?_, fun s t hs h => ?_⟩
  · obtain ⟨hahead, hheld⟩ := listAhead_iff.1 hs
    have hstands := layer_ahead.keptByStep s t ⟨hahead, hheld⟩ h
    exact listAhead_iff.2 ⟨hstands.layer, hstands.held⟩
  · obtain ⟨hbelt, hordered⟩ := listInOrder_iff.1 hs
    obtain ⟨hahead, hheld⟩ := listAhead_iff.1 hbelt
    have hstands := layer_ordered.keptByStep s t ⟨⟨hahead, hordered⟩, hheld⟩ h
    exact listInOrder_iff.2 ⟨listAhead_iff.2 ⟨hstands.layer.1, hstands.held⟩, hstands.layer.2⟩
  · obtain ⟨hqueue, hlist, hnamed⟩ := entriesNameLiveItems_iff.1 hs
    obtain ⟨hbelt, hordered⟩ := listInOrder_iff.1 hlist
    obtain ⟨hahead, hheld⟩ := listAhead_iff.1 hbelt
    have hstands := layer_named.keptByStep s t ⟨⟨hahead, hordered, hqueue, hnamed⟩, hheld⟩ h
    obtain ⟨hahead', hordered', hqueue', hnamed'⟩ := hstands.layer
    exact entriesNameLiveItems_iff.2
      ⟨hqueue', listInOrder_iff.2 ⟨listAhead_iff.2 ⟨hahead', hstands.held⟩, hordered'⟩, hnamed'⟩

end Sys2Proof.Machine
end

section
/-! PROOFS. Supply and reset (sections 8.7, 10.1): the queue of commands, the reset values, and what a part that does not
run takes. -/

namespace Sys2Proof.Machine

/-- Settles O1. -/
theorem stepRunsTheFrontCommand : Obligations.StepRunsTheFrontCommand := by
  refine ⟨fun c rest s => rfl, fun s => ?_⟩
  unfold State.Proceeds
  cases hp : s.pending with
  | nil => exact ⟨s.clockPeriod, step_nil hp⟩
  | cons c rest =>
    rw [step_cons hp]
    exact exec_next c _

/-! ### Reset values -/

theorem replicate_get {α : Type} {n : Nat} (x : α) (i : Fin n) : (Vector.replicate n x)[i] = x :=
  Vector.getElem_replicate i.isLt

/-- The values after a reset, whatever the part held before. -/
theorem resetBlocks_atDefaults (s : State) (powerOn : Bool) : (s.resetBlocks powerOn).AtDefaults where
  position := rfl
  laneConfig l := congrArg Lane.config (replicate_get Lane.reset l)
  detectors l := ⟨congrArg Lane.detector (replicate_get Lane.reset l), congrArg Lane.previous (replicate_get Lane.reset l)⟩
  counters l := congrArg Lane.counters (replicate_get Lane.reset l)
  queue := rfl
  list := rfl
  stationConfig n := congrArg Station.config (replicate_get Station.reset n)
  stations n := by
    have h : (s.resetBlocks powerOn).stations[n] = Station.reset := replicate_get Station.reset n
    rw [h]
    exact ⟨rfl, rfl, rfl, rfl, rfl⟩
  outputs o := replicate_get OutputLine.reset o
  references := rfl
  events := rfl
  control := rfl
  ready := ⟨rfl, rfl, rfl⟩
  results := ⟨rfl, fun k => replicate_get (0 : Word) k, fun k => replicate_get (0 : Word) k⟩
  interrupts := ⟨rfl, rfl⟩
  globals := ⟨rfl, rfl⟩

/-- The supply is no block of the part. -/
theorem atDefaults_power {s : State} (h : s.AtDefaults) (power : Power) : State.AtDefaults { s with power := power } :=
  ⟨h.position, h.laneConfig, h.detectors, h.counters, h.queue, h.list, h.stationConfig, h.stations, h.outputs,
    h.references, h.events, h.control, h.ready, h.results, h.interrupts, h.globals⟩

theorem exec_powerOnResetEnd {s : State} (h : s.power = .starting) :
    exec .powerOnResetEnd s = .next { s.resetBlocks true with power := .on } := by
  have hrun : s.running = false := not_running_of_power (by simp [h])
  change Host.Outcome.next (s.amid _) = _
  rw [amid_stopped hrun, h]

theorem exec_powerLoss {s : State} (h : s.power ≠ .off) :
    exec .powerLoss s = .next { s.resetBlocks false with power := .off } := by
  change Host.Outcome.next (match s.power with
    | .off => s
    | .starting => { s.resetBlocks false with power := .off }
    | .on => { s.resetBlocks false with power := .off }) = _
  cases hp : s.power with
  | off => exact absurd hp h
  | starting => rfl
  | on => rfl

/-- Settles O3. -/
theorem powerOnResetGivesTheDefaults : Obligations.PowerOnResetGivesTheDefaults := by
  intro s
  refine ⟨fun h => ?_, fun h => ?_, fun h => ?_⟩
  · have hrun : s.running = false := not_running_of_power (by simp [h])
    change Host.Outcome.next (s.amid _) = _
    rw [amid_stopped hrun, h]
  · exact ⟨_, exec_powerOnResetEnd h, atDefaults_power (resetBlocks_atDefaults s true) .on, rfl, rfl, rfl, rfl⟩
  · exact ⟨_, exec_powerLoss h, rfl, rfl, rfl, fun _ => rfl, rfl, rfl⟩

theorem exec_resetNAssert (s : State) : exec .resetNAssert s
    = .next (if s.running then (s.setResetN false).resetBlocks s.host.powerOn else s.setResetN false) := rfl

theorem exec_resetNRelease {s : State} (h : s.running = false) : exec .resetNRelease s
    = .next (if s.power = .on ∧ s.pins.resetN = false then (s.setResetN true).resetBlocks s.host.powerOn
        else s.setResetN true) :=
  congrArg Host.Outcome.next (amid_stopped h)

/-- Settles O4. -/
theorem hardwareResetGivesTheDefaults : Obligations.HardwareResetGivesTheDefaults := by
  intro s
  refine ⟨fun h => ?_, fun hp hr => ?_, fun h => ?_, fun h => ?_⟩
  · have hpower : s.power = .on := by
      simp only [State.running, Bool.and_eq_true, beq_iff_eq] at h
      exact h.1
    have hlow : State.running ((s.setResetN false).resetBlocks s.host.powerOn) = false := Bool.and_false _
    refine ⟨(s.setResetN false).resetBlocks s.host.powerOn, by rw [exec_resetNAssert, if_pos h], ?_, fun r => ?_,
      fun o => ?_, ?_, rfl, rfl, rfl, rfl⟩
    · rw [State.inReset, hlow]
      change (s.power != .off && true) = true
      rw [hpower]
      rfl
    · rw [State.registerRead, hlow]
      rfl
    · change (match s.power with
        | .off => none
        | .starting => some false
        | .on => some false) = some false
      rw [hpower]
    · rw [State.intNLow, hlow]
      rfl
  · have hrun : s.running = false := by simp [State.running, hr]
    refine ⟨(s.setResetN true).resetBlocks s.host.powerOn, by rw [exec_resetNRelease hrun, if_pos ⟨hp, hr⟩],
      resetBlocks_atDefaults _ _, ?_, rfl, rfl, rfl⟩
    change (s.power == .on && true) = true
    rw [hp]
    rfl
  · rw [exec_resetNAssert, h]
    rfl
  · rw [exec_resetNRelease (not_running_of_power h), if_neg fun hon => h hon.1]
    rfl

/-! ### A part that does not run -/

theorem complete_stopped {s : State} (code : BitVec 8) (judge : State → Answer) (h : s.running = false) :
    complete code judge s = .next s := by
  rw [complete, amid_stopped h, State.inFlight, h]
  rfl

theorem atPin_stopped {s : State} (pin event : State → State) (h : s.running = false) :
    s.atPin pin event = .next (pin s) := by
  rw [State.atPin, amid_stopped h, if_neg (by simp [h])]

theorem writeCycle_stopped {s : State} (effect : State → State) (h : s.running = false) : s.writeCycle effect = s := by
  rw [State.writeCycle, amid_stopped h, if_neg (by simp [h])]

theorem readCycle_stopped {s : State} (register : BitVec 5) (effect : State → State) (h : s.running = false) :
    s.readCycle register effect = if s.inReset then { s with readData := 0 } else s := by
  rw [State.readCycle, amid_stopped h, if_neg (by simp [h])]
  rfl

theorem exec_unknownCommand_stopped {s : State} (h : s.running = false) : exec .unknownCommand s = .next s := by
  change execUnknownCommand s = .next s
  unfold execUnknownCommand
  split
  · rw [amid_stopped h]
    rfl
  · exact complete_stopped _ _ h

/-! #### The pin events, each as what it does at its pin -/

theorem exec_encoderTransition (a b : Level) (s : State) : exec (.encoderTransition a b) s
    = s.atPin (fun t => t.setEncoder a b) fun t => (t.setReference a b).move (s.position.judge a b) := rfl

theorem exec_timePulseEnd (n : StationId) (s : State) :
    exec (.timePulseEnd n) s = s.atPin id fun t => t.takePulseEnd n := rfl

theorem exec_watchExpiry (n : StationId) (s : State) : exec (.watchExpiry n) s = s.atPin id fun t => t.missHead n 0 := rfl

theorem exec_confirmEdge (input : InputId) (rising : Bool) (s : State) : exec (.confirmEdge input rising) s
    = s.atPin (fun t => t.setCfm input rising) fun t =>
        if s.cfmRef[input] = rising then t else (t.sampleCfm input rising).takeEdge input rising := rfl

theorem exec_detInputChange (l : LaneId) (level : Level) (s : State) : exec (.detInputChange l level) s
    = s.atPin (fun t => t.setDet l level) fun t => if s.pins.det[l] = level then t else t.laneInput l := rfl

theorem exec_hldAssert (s : State) : exec .hldAssert s
    = s.atPin (fun t => t.setHld false) fun t =>
        if s.control.hldAsserted then t else (t.sampleHld true).takeHalt .holdInput := rfl

theorem exec_hldRelease (s : State) : exec .hldRelease s
    = s.atPin (fun t => t.setHld true) fun t => t.sampleHld false := rfl

/-- Settles O5. -/
theorem nothingIsTakenInReset : Obligations.NothingIsTakenInReset := by
  intro c s hc h
  have hwrite (effect : State → State) : (Host.Outcome.next (s.writeCycle effect) : Host.Outcome State Fault Refusal) = .next s :=
    congrArg Host.Outcome.next (writeCycle_stopped effect h)
  have hread (register : BitVec 5) (effect : State → State) :
      (Host.Outcome.next (s.readCycle register effect) : Host.Outcome State Fault Refusal)
      = .next (if s.inReset then { s with readData := 0 } else s) :=
    congrArg Host.Outcome.next (readCycle_stopped register effect h)
  cases c with
  | powerApplied => cases hc
  | powerOnResetEnd => cases hc
  | resetNAssert => cases hc
  | resetNRelease => cases hc
  | powerLoss => cases hc
  | encoderTransition a b => exact (exec_encoderTransition a b s).trans (atPin_stopped _ _ h)
  | timePulseEnd n => exact (exec_timePulseEnd n s).trans (atPin_stopped _ _ h)
  | watchExpiry n => exact (exec_watchExpiry n s).trans (atPin_stopped _ _ h)
  | confirmEdge input rising => exact (exec_confirmEdge input rising s).trans (atPin_stopped _ _ h)
  | detInputChange l level => exact (exec_detInputChange l level s).trans (atPin_stopped _ _ h)
  | hldAssert => exact (exec_hldAssert s).trans (atPin_stopped _ _ h)
  | hldRelease => exact (exec_hldRelease s).trans (atPin_stopped _ _ h)
  | cmdWrite value => exact hwrite _
  | eventDataWrite value => exact hwrite _
  | intStatusWrite value => exact hwrite _
  | intEnableWrite value => exact hwrite _
  | eventThresholdWrite value => exact hwrite _
  | statusWrite value => exact hwrite _
  | registerWrite register value => exact hwrite _
  | posLowRead => exact hread _ _
  | trackLowRead => exact hread _ _
  | eventDataRead => exact hread _ _
  | unknownCommand => exact exec_unknownCommand_stopped h
  | _ => exact complete_stopped _ _ h

/-! ### The state after reset -/

theorem reset_eq : State.reset = { State.resetBlocks { State.reset with pins := .reset } true with power := .on } := rfl

/-- What every step keeps holds after reset, for it holds after every reset of the blocks. -/
theorem Kept.reset {P : State → Prop} (hk : Kept P) : P State.reset := by
  rw [reset_eq]
  exact hk.blocks ..

theorem Layer.reset {P : Bool → Bool → State → Prop} (hL : Layer P) : P false false State.reset := by
  rw [reset_eq]
  exact hL.blocks ..

theorem reset_held (l : LaneId) : State.reset.HeldAt 0 l := heldAt_of_not_tracking (by simp [State.reset, Control.reset])

/-- Settles O51. -/
theorem resetMeetsTheInvariants : Obligations.ResetMeetsTheInvariants := by
  obtain ⟨hahead, hordered, hqueue, hnamed⟩ := layer_named.reset
  have hbelt : State.reset.ListAheadOfTheBelt := listAhead_iff.2 ⟨hahead, reset_held⟩
  have horder : State.reset.ListInOrder := listInOrder_iff.2 ⟨hbelt, hordered⟩
  refine ⟨kept_withinCapacity.reset, kept_eventsSound.reset, kept_setupIsEmpty.reset, kept_stationsServed.reset, ?_,
    kept_holdRespected.reset, kept_outputsSound.reset, kept_detectorsSound.reset, kept_tagsSound.reset, hqueue,
    kept_configSound.reset, kept_referencesCurrent.reset, hbelt, horder,
    entriesNameLiveItems_iff.2 ⟨hqueue, horder, hnamed⟩⟩
  obtain ⟨htracking, hhalted, hmask⟩ := kept_causesRecorded.reset
  exact ⟨htracking, hhalted, hmask, fun _ => rfl, fun _ => rfl, fun _ => rfl⟩

end Sys2Proof.Machine
end

section
/-! PROOFS. The encoder (Chapter 1): the free choices made play no part in what a lane does, and every kind of transition
at which no block has anything to take. -/

namespace Sys2Proof.Machine

/-! ### The free choices made play no part in a re-sampling -/

/-- The state with another number of free choices made. -/
def State.chosen (s : State) (n : Nat) : State := { s with choices := n }

section
variable (s : State) (n : Nat)

theorem chosen_chosen (m : Nat) : (s.chosen n).chosen m = s.chosen m := rfl

theorem arrive_chosen (r : EventRecord) : (s.chosen n).arrive r = (s.arrive r).chosen n := by
  rw [arrive_eq, arrive_eq]
  rfl

theorem report_chosen (kind : EventKind) (unit : BitVec 4) (tag : Tag) (a b : Word) :
    (s.chosen n).report kind unit tag a b = (s.report kind unit tag a b).chosen n := arrive_chosen ..

theorem applySizePolicy_chosen (l : LaneId) (tag : Tag) (reason : BitVec 8) :
    (s.chosen n).applySizePolicy l tag reason = (s.applySizePolicy l tag reason).chosen n := by
  have hfind : (s.chosen n).findItem tag = s.findItem tag := rfl
  have hlanes : (s.chosen n).lanes = s.lanes := rfl
  unfold State.applySizePolicy
  rw [hfind, hlanes]
  split
  · rfl
  · rfl
  · split <;> rfl

theorem findLong_chosen (l : LaneId) (tag : Tag) : (s.chosen n).findLong l tag = (s.findLong l tag).chosen n := by
  rw [State.findLong, State.findLong, ← applySizePolicy_chosen, ← report_chosen]
  rfl

theorem checkLong_chosen (l : LaneId) : (s.chosen n).checkLong l = (s.checkLong l).chosen n := by
  have hdue : (s.chosen n).longDue l = s.longDue l := rfl
  unfold State.checkLong
  rw [hdue]
  split
  · rfl
  · exact findLong_chosen ..

theorem refuseAdmission_chosen (l : LaneId) (reason : Word) :
    (s.chosen n).refuseAdmission l reason = (s.refuseAdmission l reason).chosen n := by
  have hreport : ((s.chosen n).countLane l .refused).report .itemRefused (laneUnit l) 0 reason 0
      = ((s.countLane l .refused).report .itemRefused (laneUnit l) 0 reason 0).chosen n :=
    report_chosen (s.countLane l .refused) n ..
  unfold State.refuseAdmission
  dsimp only
  rw [hreport]
  generalize (s.countLane l .refused).report .itemRefused (laneUnit l) 0 reason 0 = t
  change (match (t.setDetector l (.occupied none none)).lanes[l].config.overflow with
    | .drop => (t.setDetector l (.occupied none none)).chosen n
    | .halt => ((t.setDetector l (.occupied none none)).requestHalt .queueFull).chosen n) = _
  cases (t.setDetector l (.occupied none none)).lanes[l].config.overflow <;> rfl

theorem enroll_chosen (l : LaneId) (pos : Pos) (tag : Tag) : (s.chosen n).enroll l pos tag = (s.enroll l pos tag).chosen n := by
  rw [enroll_eq, enroll_eq]
  rfl

theorem requestAdmission_chosen (l : LaneId) (pos : Pos) :
    (s.chosen n).requestAdmission l pos = (s.requestAdmission l pos).chosen n := by
  have hjudge : (s.chosen n).judgeAdmission l = s.judgeAdmission l := rfl
  have hlink (t : State) (tag : Tag) : (t.chosen n).linkAdmitted l tag = (t.linkAdmitted l tag).chosen n :=
    checkLong_chosen ((t.countLane l .admitted).setDetector l (.occupied (some tag) none)) n l
  unfold State.requestAdmission
  rw [hjudge]
  split
  · rw [admitItem_eq_enroll, admitItem_eq_enroll, enroll_chosen, report_chosen, hlink]
  · exact refuseAdmission_chosen ..
  · exact refuseAdmission_chosen ..

theorem acceptLeading_chosen (l : LaneId) (pos : Pos) :
    (s.chosen n).acceptLeading l pos = (s.acceptLeading l pos).chosen n := by
  have hclose : ((s.chosen n).countLane l .leading).lanes[l].tooClose pos = (s.countLane l .leading).lanes[l].tooClose pos :=
    rfl
  unfold State.acceptLeading
  dsimp only
  rw [hclose]
  split
  · rfl
  · rw [show (s.chosen n).countLane l .leading = (s.countLane l .leading).chosen n from rfl, requestAdmission_chosen]
    rfl

theorem longAtTrailing_chosen (l : LaneId) (i : Item) (length : Pos) :
    (s.chosen n).longAtTrailing l i length = (s.longAtTrailing l i length).chosen n := by
  have hlanes : (s.chosen n).lanes = s.lanes := rfl
  unfold State.longAtTrailing
  rw [hlanes]
  split
  · exact findLong_chosen ..
  · rfl

theorem shortAtTrailing_chosen (l : LaneId) (tag : Tag) (length : Pos) :
    (s.chosen n).shortAtTrailing l tag length = (s.shortAtTrailing l tag length).chosen n := by
  have hlanes : (s.chosen n).lanes = s.lanes := rfl
  unfold State.shortAtTrailing
  rw [hlanes]
  split
  · exact applySizePolicy_chosen (s.updItem tag _) n l tag 0xF0
  · rfl

theorem reportTrailing_chosen (l : LaneId) (i : Item) (pos : Pos) :
    (s.chosen n).reportTrailing l i pos = (s.reportTrailing l i pos).chosen n := by
  have hstore : (s.chosen n).storeTrailing i pos = (s.storeTrailing i pos).chosen n := rfl
  have hrekey (t : State) (tag : Tag) : (t.chosen n).rekey tag pos = (t.rekey tag pos).chosen n := rfl
  unfold State.reportTrailing
  dsimp only
  rw [hstore, longAtTrailing_chosen, shortAtTrailing_chosen, hrekey, report_chosen]

theorem acceptTrailing_chosen (l : LaneId) (link : Option Tag) (pos : Pos) :
    (s.chosen n).acceptTrailing l link pos = (s.acceptTrailing l link pos).chosen n := by
  cases hf : link.bind s.findItem with
  | none =>
    rw [acceptTrailing_none l pos hf, acceptTrailing_none (s := s.chosen n) l pos hf]
    rfl
  | some i =>
    rw [acceptTrailing_some l pos hf, acceptTrailing_some (s := s.chosen n) l pos hf, reportTrailing_chosen]
    rfl

theorem laneResample_chosen (l : LaneId) : (s.chosen n).laneResample l = (s.laneResample l).chosen n := by
  have hblanked : (s.chosen n).blanked = s.blanked := rfl
  have hlanes : (s.chosen n).lanes = s.lanes := rfl
  have hposition : (s.chosen n).position = s.position := rfl
  have hactive : (s.chosen n).inputActive l = s.inputActive l := rfl
  unfold State.laneResample
  rw [hblanked, hlanes, hposition, hactive]
  split
  · rfl
  · dsimp only
    split
    · rfl
    · split <;> rfl
    · split
      · split
        · exact acceptLeading_chosen ..
        · rfl
      · rfl
    · split <;> rfl
    · split
      · exact checkLong_chosen (s.setDetector l _) n l
      · exact acceptTrailing_chosen ..

end

/-! ### A re-sampling is one in some order -/

theorem foldl_chosen {α : Type} {act : State → α → State} (ha : ∀ s n x, act (s.chosen n) x = (act s x).chosen n)
    (order : List α) (s : State) (n : Nat) : order.foldl act (s.chosen n) = (order.foldl act s).chosen n := by
  induction order generalizing s with
  | nil => rfl
  | cons x rest ih => rw [List.foldl_cons, List.foldl_cons, ha, ih]

theorem countChoice_chosen {α : Type} (s : State) (xs : List α) : ∃ n, s.countChoice xs = s.chosen n := by
  unfold State.countChoice
  split
  · exact ⟨s.choices + 1, rfl⟩
  · exact ⟨s.choices, rfl⟩

/-- A free order of actions that the free choices do not touch. -/
theorem inFreeOrder_order {α : Type} {act : α → State → State} (ha : ∀ s n x, act x (s.chosen n) = (act x s).chosen n)
    (xs : List α) (s : State) : ∃ (order : List α) (n : Nat), order.Perm xs
      ∧ inFreeOrder act xs.length xs s = (order.foldl (fun t x => act x t) s).chosen n := by
  generalize hk : xs.length = k
  induction k generalizing xs s with
  | zero =>
    obtain rfl := List.length_eq_zero_iff.1 hk
    exact ⟨[], s.choices, .refl _, rfl⟩
  | succ k ih =>
    simp only [inFreeOrder]
    split
    next hpick =>
      have hsome := pick_isSome (Config.choice s.choices) xs
      rw [hpick] at hsome
      obtain rfl : xs = [] := by simpa using hsome
      exact ⟨[], s.choices, .refl _, rfl⟩
    next x rest hpick =>
      have hperm := pick_perm hpick
      have hlength := hperm.length_eq
      rw [List.length_cons] at hlength
      obtain ⟨m, hm⟩ := countChoice_chosen s xs
      obtain ⟨order, n, horder, heq⟩ := ih rest (act x (s.countChoice xs)) (by omega)
      refine ⟨x :: order, n, (horder.cons x).trans hperm.symm, ?_⟩
      rw [heq, hm, ha, List.foldl_cons, foldl_chosen fun s n x => ha s n x, chosen_chosen]

/-- Every re-sampling is that of the four lanes in some order. -/
theorem resampleAll_order (s : State) : ∃ (order : List LaneId) (n : Nat), order.Perm [0, 1, 2, 3]
    ∧ s.resampleAll = (order.foldl State.laneResample s).chosen n := by
  obtain ⟨shared, n, hperm, heq⟩ := inFreeOrder_order (act := fun l t => State.laneResample t l)
    (fun s n l => laneResample_chosen s n l) (laneIds.filter s.resampleShares)
    ((laneIds.filter fun l => !s.resampleShares l).foldl State.laneResample s)
  refine ⟨(laneIds.filter fun l => !s.resampleShares l) ++ shared, n, ?_, ?_⟩
  · refine (hperm.append_left _).trans (List.perm_append_comm.trans ?_)
    exact List.filter_append_perm s.resampleShares laneIds
  · rw [List.foldl_append]
    exact heq

/-! ### Transitions -/

/-- In a part that runs with no request on its way, a transition is judged, and the requests it raises arrive. -/
theorem exec_transition {s : State} (a b : Level) (h : s.Quiet) :
    exec (.encoderTransition a b) s = .next ((s.atPair a b).move (s.position.judge a b)).arriveHalts :=
  (exec_encoderTransition a b s).trans (atPin_quiet _ _ h)

theorem exec_noStep {s : State} {a b : Level} (h : s.Quiet) (hstep : s.IsNoStep a b) :
    exec (.encoderTransition a b) s = .next (s.atPair a b) := by
  obtain ⟨-, hrequests⟩ := id h
  rw [exec_transition a b h, judge_noStep hstep]
  exact congrArg Host.Outcome.next (arriveHalts_none hrequests)

theorem exec_forward {s : State} {a b : Level} (h : s.Quiet) (hstep : s.IsStep true a b) :
    exec (.encoderTransition a b) s = .next (s.atPair a b).forwardStep.arriveHalts := by
  rw [exec_transition a b h, judge_step hstep]
  rfl

theorem exec_backward {s : State} {a b : Level} (h : s.Quiet) (hstep : s.IsStep false a b) :
    exec (.encoderTransition a b) s = .next (s.atPair a b).backwardStep.arriveHalts := by
  rw [exec_transition a b h, judge_step hstep]
  rfl

/-! #### In SETUP -/

/-- A step in SETUP, in either mode (R5, R7, R85). -/
theorem exec_step_setup {s : State} {a b : Level} {forward : Bool} (h : s.Quiet) (ho : s.control.op = .setup)
    (hstep : s.IsStep forward a b) : exec (.encoderTransition a b) s
      = .next (s.setupStep a b (if forward then s.position.counter + 1 else s.position.counter - 1)) := by
  obtain ⟨-, hrequests⟩ := id h
  have ho' : (s.atPair a b).control.op = .setup := ho
  cases forward with
  | true =>
    rw [exec_forward h hstep, State.forwardStep, ho']
    exact congrArg Host.Outcome.next (arriveHalts_none hrequests)
  | false =>
    rw [exec_backward h hstep, State.backwardStep, ho']
    exact congrArg Host.Outcome.next (arriveHalts_none hrequests)

/-- The direction before the invert is that of the sequence, or of the level of ENC_B (R3). -/
theorem isStep_quad {s : State} {k : Fin 4} (hm : s.position.mode = .quad)
    (href : (s.position.refA, s.position.refB) = quadSequence k) (onward : Bool) :
    s.IsStep (onward != s.position.invert) (quadSequence (if onward then k + 1 else k - 1)).1
      (quadSequence (if onward then k + 1 else k - 1)).2 := by
  refine .inl ⟨hm, k, href, ?_⟩
  cases onward <;> cases s.position.invert <;> rfl

theorem isStep_pulse {s : State} {b : Level} (hm : s.position.mode = .pulseDir) (href : s.position.refA = false) :
    s.IsStep ((!b) != s.position.invert) true b := by
  refine .inr ⟨hm, href, rfl, ?_⟩
  cases b <;> cases s.position.invert <;> rfl

/-- Settles O6. -/
theorem quadratureStepsInSetup : Obligations.QuadratureStepsInSetup := by
  intro s k h ho hm href
  obtain ⟨hA, hB⟩ := Prod.mk.inj href
  exact ⟨exec_step_setup h ho (isStep_quad hm href true), exec_step_setup h ho (isStep_quad hm href false),
    exec_noStep h (.inl ⟨hm, hA.symm, hB.symm⟩)⟩

/-- Settles O7. -/
theorem pulseDirectionStepsInSetup : Obligations.PulseDirectionStepsInSetup := by
  intro s a b h ho hm
  refine ⟨?_, fun hno => exec_noStep h (.inr ⟨hm, hno⟩)⟩
  rintro href rfl
  exact exec_step_setup h ho (isStep_pulse hm href)

/-! #### Encoder errors -/

/-- The encoder error counted, and the reference at the new pair (R4). -/
def State.erred (s : State) : State :=
  let p := s.atPair (!s.position.refA) (!s.position.refB)
  { p with position := { p.position with errors := s.position.errors + 1 } }

theorem judge_error {s : State} (h : s.position.mode = .quad) :
    s.position.judge (!s.position.refA) (!s.position.refB) = .error := by
  unfold PositionUnit.judge
  rw [h]
  cases s.position.invert <;> cases s.position.refA <;> cases s.position.refB <;> rfl

theorem exec_error {s : State} (h : s.Quiet) (hm : s.position.mode = .quad) :
    exec (.encoderTransition (!s.position.refA) (!s.position.refB)) s
      = .next (s.atPair (!s.position.refA) (!s.position.refB)).encoderError.arriveHalts := by
  rw [exec_transition _ _ h, judge_error hm]
  rfl

/-- Settles O8. -/
theorem encoderErrorIsCounted : Obligations.EncoderErrorIsCounted := by
  intro s h hm
  obtain ⟨-, hrequests⟩ := id h
  dsimp only
  rw [exec_error h hm, State.encoderError]
  refine ⟨fun ho => ?_, fun ho => ?_, fun ho => ?_⟩
  · have ho' : (s.atPair (!s.position.refA) (!s.position.refB)).control.op = .setup := ho
    rw [ho']
    exact congrArg Host.Outcome.next (arriveHalts_none hrequests)
  · have ho' : (s.atPair (!s.position.refA) (!s.position.refB)).control.op = .tracking := ho
    rw [ho']
    exact requested_arrives (s := s.erred) hrequests (ho'.trans_ne (by simp))
  · have ho' : (s.atPair (!s.position.refA) (!s.position.refB)).control.op = .halted := ho
    rw [ho']
    exact congrArg Host.Outcome.next (arriveHalts_none hrequests)

end Sys2Proof.Machine
end

section
/-! PROOFS. The belt outside SETUP (sections 1.3 to 1.5, 4.4, 4.7): advances, backward steps, re-travel and regain. -/

namespace Sys2Proof.Machine

/-! ### An advance with no lane acting -/

theorem listAdvance_of_none {s : State} (h : ∀ e ∈ s.list.entries, s.due e = false) : s.listAdvance = s := by
  unfold State.listAdvance
  split
  · rfl
  · generalize s.list.entries.length = fuel
    cases fuel with
    | zero => rfl
    | succ fuel => simp only [State.fireDue, takeFirst_none.2 h]
  · have hmap : s.list.entries.map (fun e => if s.due e then { e with reached := true } else e) = s.list.entries :=
      (List.map_congr_left (g := id) fun e he => if_neg (by simp [h e he])).trans (List.map_id _)
    rw [State.markReached, State.updEntries, hmap]

/-- With no lane to act, an advance is the list's alone. -/
theorem takeAdvance_of_no_lane {s : State} (hl : ∀ l, s.laneDue l = false) (hr : s.control.requests = []) :
    s.takeAdvance = s.listAdvance.settleTracking := by
  have hlanes : laneIds.filter s.laneDue = [] := List.filter_eq_nil_iff.2 fun l _ => by simp [hl l]
  have hself : s.withRequests [] = s := by rw [← hr]; rfl
  unfold State.takeAdvance State.advanceTasks
  rw [hlanes, List.map_nil, List.nil_append]
  split
  · rw [taskFuel, runTasks_one 63 .list hr, hself]
    rfl
  next hnone =>
    rw [runTasks_nil, listAdvance_of_none fun e he => ?_]
    simpa using fun hdue => hnone (List.any_eq_true.2 ⟨e, he, hdue⟩)

theorem settleTracking_tracking {s : State} (h : s.control.op = .tracking) :
    s.settleTracking = { s with list := { s.list with firingPoint := s.position.tracking } } := by
  rw [State.settleTracking, h]
  rfl

theorem settleTracking_halted {s : State} (h : s.control.op = .halted) : s.settleTracking = s := by
  rw [State.settleTracking, h]

/-- An advance is a forward step from reverse amount 0 (R8). -/
theorem forwardStep_of_advance {s : State} (ho : s.control.op ≠ .setup) (hr : s.reverse = 0) (a b : Level) :
    (s.atPair a b).forwardStep = (s.advanced a b).takeAdvance := by
  have hr' : (s.atPair a b).reverse = 0 := hr
  have ho' : (s.atPair a b).control.op ≠ .setup := ho
  unfold State.forwardStep
  dsimp only
  split
  next h => exact absurd h ho'
  next => rw [if_pos hr']; rfl
  next => rw [if_pos hr']; rfl

theorem exec_advance {s : State} {op : OpState} {a b : Level} (h : s.Advances op a b) (ho : op ≠ .setup) :
    exec (.encoderTransition a b) s = .next (s.advanced a b).takeAdvance.arriveHalts := by
  rw [exec_forward h.quiet h.forward, forwardStep_of_advance (h.state.trans_ne ho) h.reverse]

/-! ### Steps that move the counter alone -/

theorem moveCounter_eq {s : State} {counter : Pos} (h : s.control.op = .tracking → s.reverse ≠ 0 →
    (s.setPositions counter s.position.tracking).reverse ≠ 0) :
    s.moveCounter counter = s.setPositions counter s.position.tracking := by
  unfold State.moveCounter
  dsimp only
  split
  next hregain =>
    simp only [Bool.and_eq_true, bne_iff_ne, beq_iff_eq] at hregain
    obtain ⟨⟨hne, hzero⟩, ho⟩ := hregain
    exact absurd hzero (h ho hne)
  next => rfl

theorem moveCounter_regain {s : State} {counter : Pos} (ho : s.control.op = .tracking) (hr : s.reverse ≠ 0)
    (hzero : (s.setPositions counter s.position.tracking).reverse = 0) :
    s.moveCounter counter = (s.setPositions counter s.position.tracking).resampleAll := by
  have ho' : (s.setPositions counter s.position.tracking).control.op = .tracking := ho
  unfold State.moveCounter
  dsimp only
  rw [if_pos]
  simp only [Bool.and_eq_true, bne_iff_ne, beq_iff_eq]
  exact ⟨⟨hr, hzero⟩, ho'⟩

/-- Re-travel: a forward step from a reverse amount that is not 0 (R10). -/
theorem forwardStep_of_retravel {s : State} (ho : s.control.op ≠ .setup) (hr : s.reverse ≠ 0) :
    s.forwardStep = s.moveCounter (s.position.counter + 1) := by
  unfold State.forwardStep
  dsimp only
  split
  next h => exact absurd h ho
  next => rw [if_neg hr]
  next => rw [if_neg hr]

/-- The reverse amount one less, or one more, as the counter moves. -/
theorem reverse_forward (s : State) :
    (s.setPositions (s.position.counter + 1) s.position.tracking).reverse = s.reverse - 1 := by
  change s.position.tracking - (s.position.counter + 1) = s.position.tracking - s.position.counter - 1
  rw [sub_sub]

theorem reverse_backward (s : State) :
    (s.setPositions (s.position.counter - 1) s.position.tracking).reverse = s.reverse + 1 := by
  change s.position.tracking - (s.position.counter - 1) = s.position.tracking - s.position.counter + 1
  rw [sub_sub_eq_add_sub, add_sub_right_comm]

/-! ### Re-sampling in which nothing happens -/

theorem laneResample_settled {s : State} {l : LaneId} (h : s.LaneSettled l) : s.laneResample l = s := by
  unfold State.laneResample
  split
  · rfl
  · obtain hd | ⟨hd, hactive⟩ | ⟨hd, hactive⟩ := h
    · simp only [hd]
    · simp only [hd, hactive, if_true]
    · simp only [hd, hactive, Bool.false_eq_true, if_false]

theorem resampleShares_settled {s : State} {l : LaneId} (h : s.LaneSettled l) : s.resampleShares l = false := by
  unfold State.resampleShares
  obtain hd | ⟨hd, -⟩ | ⟨hd, hactive⟩ := h
  · simp only [hd]
  · simp only [hd]
  · simp only [hd, hactive, Bool.false_and]

theorem foldl_resample_settled {s : State} (h : ∀ l, s.LaneSettled l) (order : List LaneId) :
    order.foldl State.laneResample s = s := by
  induction order with
  | nil => rfl
  | cons l rest ih => rw [List.foldl_cons, laneResample_settled (h l), ih]

theorem resampleAll_settled {s : State} (h : ∀ l, s.LaneSettled l) : s.resampleAll = s := by
  have hshared : laneIds.filter s.resampleShares = [] :=
    List.filter_eq_nil_iff.2 fun l _ => by simp [resampleShares_settled (h l)]
  unfold State.resampleAll
  dsimp only
  rw [hshared, List.length_nil, foldl_resample_settled h]
  rfl

/-! ### Transitions in TRACKING -/

theorem toNat_add_one {p : Pos} (h : p.toNat + 1 < 2 ^ 32) : (p + 1).toNat = p.toNat + 1 := by
  rw [BitVec.toNat_add]
  exact Nat.mod_eq_of_lt h

/-- A backward step in TRACKING moves the counter; it exceeds the tolerance, or does not (R10, R11). -/
theorem backwardStep_tracking {s : State} (ho : s.control.op = .tracking) (hr : s.reverse.toNat ≤ s.position.tolerance.toNat) :
    s.backwardStep = if s.reverse.toNat = s.position.tolerance.toNat
      then (s.setPositions (s.position.counter - 1) s.position.tracking).requestHalt .overReverse
      else s.setPositions (s.position.counter - 1) s.position.tracking := by
  have htolerance := s.position.tolerance.isLt
  have hone : (s.setPositions (s.position.counter - 1) s.position.tracking).reverse.toNat = s.reverse.toNat + 1 := by
    rw [reverse_backward, toNat_add_one (by omega)]
  have hmove : s.moveCounter (s.position.counter - 1) = s.setPositions (s.position.counter - 1) s.position.tracking := by
    refine moveCounter_eq fun _ _ h0 => ?_
    rw [h0] at hone
    simp at hone
  have hover : (s.setPositions (s.position.counter - 1) s.position.tracking).overReverse
      = decide (s.position.tolerance.toNat < s.reverse.toNat + 1) := by
    rw [State.overReverse, hone]
    rfl
  have hnot : s.overReverse = false := by simpa [State.overReverse] using hr
  unfold State.backwardStep
  simp only [ho, hmove, hover, hnot, Bool.not_false, Bool.and_true, decide_eq_true_eq]
  by_cases heq : s.reverse.toNat = s.position.tolerance.toNat
  · rw [if_pos (by omega), if_pos heq]
  · rw [if_neg (by omega), if_neg heq]

/-- The regain moves the counter, and the lanes re-sample (R10, R31). -/
theorem exec_regain {s : State} {a b : Level} (h : s.Quiet) (ho : s.control.op = .tracking) (hstep : s.IsStep true a b)
    (hr : s.reverse = 1) :
    exec (.encoderTransition a b) s = .next (s.regained a b).resampleAll.arriveHalts := by
  have hr' : (s.atPair a b).reverse = 1 := hr
  rw [exec_forward h hstep, forwardStep_of_retravel (s := s.atPair a b) (ho.trans_ne (by simp)) (by rw [hr']; decide),
    moveCounter_regain (s := s.atPair a b) ho (by rw [hr']; decide) (by rw [reverse_forward, hr']; rfl)]
  rfl

/-- Settles O9. -/
theorem stepsInTracking : Obligations.StepsInTracking := by
  refine ⟨fun s a b h hstep => exec_noStep h hstep, fun s a b h ho => ⟨fun hstep => ⟨fun hr hl he => ?_, fun hr => ?_,
    fun hr hsettled => ?_, fun hr => ?_⟩, fun hstep => ⟨fun hr => ?_, fun hr => ?_⟩⟩, fun s a b h ho hstep => ?_⟩
  all_goals obtain ⟨-, hrequests⟩ := id h
  · have hadvance : s.Advances .tracking a b := ⟨h, ho, hstep, hr⟩
    have hnone : (s.advanced a b).listAdvance = s.advanced a b :=
      listAdvance_of_none fun e hmem => by simpa [State.due, State.advanced] using he e hmem
    rw [exec_advance hadvance (by simp), takeAdvance_of_no_lane (s := s.advanced a b) hl hrequests, hnone,
      settleTracking_tracking (s := s.advanced a b) ho]
    exact congrArg Host.Outcome.next (arriveHalts_none hrequests)
  · have hne : s.reverse ≠ 0 := fun h0 => by
      rw [h0] at hr
      simp at hr
    have hne' : s.reverse - 1 ≠ 0 := fun h0 => by
      have h1 : s.reverse = 1 := sub_eq_zero.1 h0
      rw [h1] at hr
      simp at hr
    rw [exec_forward h hstep, forwardStep_of_retravel (s := s.atPair a b) (ho.trans_ne (by simp)) hne,
      moveCounter_eq fun _ _ => by rw [reverse_forward]; exact hne']
    exact congrArg Host.Outcome.next (arriveHalts_none hrequests)
  · have hsettled' (l : LaneId) : (s.regained a b).LaneSettled l := hsettled l
    rw [exec_regain h ho hstep hr, resampleAll_settled hsettled']
    exact congrArg Host.Outcome.next (arriveHalts_none hrequests)
  · obtain ⟨order, n, hperm, heq⟩ := resampleAll_order (s.regained a b)
    refine ⟨order, n, hperm, ?_⟩
    rw [exec_regain h ho hstep hr, heq]
    rfl
  · rw [exec_backward h hstep, backwardStep_tracking (s := s.atPair a b) ho (le_of_lt hr),
      if_neg (show ¬ (s.atPair a b).reverse.toNat = (s.atPair a b).position.tolerance.toNat from ne_of_lt hr)]
    exact congrArg Host.Outcome.next (arriveHalts_none hrequests)
  · rw [exec_backward h hstep, backwardStep_tracking (s := s.atPair a b) ho (le_of_eq hr),
      if_pos (show (s.atPair a b).reverse.toNat = (s.atPair a b).position.tolerance.toNat from hr)]
    exact requested_arrives (s := s.withdrawn a b) hrequests (Eq.trans_ne (show s.control.op = .tracking from ho) (by simp))
  · have ho' : (s.atPair a b).control.op = .halted := ho
    rw [exec_backward h hstep, State.backwardStep, ho']
    dsimp only
    rw [moveCounter_eq (s := s.atPair a b) fun h' => absurd (ho.symm.trans h') (by simp)]
    exact congrArg Host.Outcome.next (arriveHalts_none hrequests)

/-! ### Advances in HALTED -/

theorem laneDue_halted {s : State} (h : s.control.op = .halted) (l : LaneId) : s.laneDue l = false := by
  simp [State.laneDue, State.blanked, h]

/-- Settles O10. -/
theorem haltedAdvanceMarksEntries : Obligations.HaltedAdvanceMarksEntries := by
  refine fun s a b => ⟨fun h => ?_, fun h ho hstep hr => ?_⟩
  · obtain ⟨-, hrequests⟩ := h.quiet
    have ho : (s.advanced a b).control.op = .halted := h.state
    have hmark : (s.advanced a b).markReached = { s.advanced a b with
        list := { s.list with entries := s.list.entries.map (fun e =>
          if e.fire = s.position.tracking + 1 then { e with reached := true } else e) } } := by
      simp only [State.markReached, State.updEntries, State.due, beq_iff_eq]
      rfl
    rw [exec_advance h (by simp), takeAdvance_of_no_lane (laneDue_halted ho) hrequests, State.listAdvance, ho]
    dsimp only
    rw [settleTracking_halted (s := (s.advanced a b).markReached) ho, arriveHalts_none (s := (s.advanced a b).markReached) hrequests, hmark]
  · obtain ⟨-, hrequests⟩ := id h
    rw [exec_forward h hstep, forwardStep_of_retravel (s := s.atPair a b) (ho.trans_ne (by simp)) hr,
      moveCounter_eq (s := s.atPair a b) fun h' => absurd (ho.symm.trans h') (by simp)]
    exact congrArg Host.Outcome.next (arriveHalts_none hrequests)

end Sys2Proof.Machine
end

section
/-! PROOFS. Lines and HLD (sections 6.1, 6.3, 6.4, 8.4), the order of the list and the firing of its entries (Chapter 4). -/

namespace Sys2Proof.Machine

/-! ### Lines and HLD -/

theorem outPin_running {s : State} (h : s.running = true) (o : OutputId) :
    s.outPin o = some (s.lineActive o != s.outputs[o].activeLow) := by
  simp only [State.running, Bool.and_eq_true, beq_iff_eq] at h
  obtain ⟨hpower, hreset⟩ := h
  simp only [State.outPin, hpower, hreset, if_true]

/-- Settles O27. -/
theorem lineLevelFollowsTheState : Obligations.LineLevelFollowsTheState := by
  intro s o
  refine ⟨fun ho => ?_, fun ho => ?_, fun ho hf => ?_, fun level ho hf hh => ?_, fun hr hp => ?_, fun hr hp => ?_⟩
  · simp only [State.lineActive, ho, beq_iff_eq]
  · simp only [State.lineActive, ho, decide_eq_true_eq]
  · simp only [State.lineActive, ho, hf]
  · simp only [State.lineActive, ho, hf, hh]
    cases level <;> rfl
  · rw [outPin_running hr, hp, Bool.bne_false]
  · rw [outPin_running hr, hp, Bool.bne_true]

/-- HLD becomes asserted: shown, and a halt request (R144). -/
theorem exec_hldAssert_quiet {s : State} (h : s.Quiet) (hhld : s.control.hldAsserted = false) :
    exec .hldAssert s = .next (((s.setHld false).sampleHld true).takeHalt .holdInput).arriveHalts := by
  rw [exec_hldAssert, atPin_quiet _ _ h, hhld]
  rfl

/-- Settles O28. -/
theorem holdInputHaltsTheLine : Obligations.HoldInputHaltsTheLine := by
  intro s h
  obtain ⟨-, hrequests⟩ := id h
  have hnone : (((s.setHld false).sampleHld true).takeHalt .holdInput).control.requests = [] :=
    (takeHalt_requests ..).trans hrequests
  refine ⟨?_, fun hhld ho => ?_, fun hhld ho => ?_, fun hhld ho => ?_⟩
  · rw [exec_hldRelease, atPin_quiet _ _ h]
    exact congrArg Host.Outcome.next (arriveHalts_none hrequests)
  all_goals rw [exec_hldAssert_quiet h hhld, arriveHalts_none hnone]
  · rw [takeHalt_setup (s := (s.setHld false).sampleHld true) _ ho]
    rfl
  · rfl
  · rw [takeHalt_halted (s := (s.setHld false).sampleHld true) _ ho]
    rfl

/-! ### List order -/

/-- Settles O11. -/
theorem placingKeepsListOrder : Obligations.PlacingKeepsListOrder := by
  intro p e es h
  refine ⟨insertEntry_order h, ?_⟩
  obtain ⟨before, after, rfl, hinsert, hbefore, hafter⟩ := insertEntry_split p e es
  refine ⟨before, after, rfl, hinsert, fun x hx => staysBefore_iff.1 (hbefore x hx), fun x hx hle => ?_⟩
  obtain ⟨-, hpair, -⟩ := List.pairwise_append.1 h
  cases after with
  | nil => cases hx
  | cons y rest =>
    have hy : ¬ y.NotAfter p e := fun hle' => by simpa [staysBefore_iff.2 hle'] using hafter y rfl
    obtain rfl | hx := List.mem_cons.1 hx
    · exact hy hle
    · exact hy (notAfter_trans ((List.pairwise_cons.1 hpair).1 x hx) hle)

/-! ### Firing -/

/-- In TRACKING an advance with no lane to act fires the list (R71). -/
theorem exec_advance_tracking {s : State} {a b : Level} (h : s.Advances .tracking a b)
    (hl : ∀ l, (s.advanced a b).laneDue l = false) :
    exec (.encoderTransition a b) s
      = .next (State.settleTracking (State.fireDue s.list.entries.length (s.advanced a b))).arriveHalts := by
  obtain ⟨-, hrequests⟩ := h.quiet
  have ho : (s.advanced a b).control.op = .tracking := h.state
  rw [exec_advance h (by simp), takeAdvance_of_no_lane hl hrequests, State.listAdvance, ho]
  rfl

/-- The taking of requests leaves the positions, the entries and the stations' runtime states alone, and the firing
point, where it is at the belt. -/
structure Untouched (s t : State) : Prop where
  position : t.position = s.position
  entries : t.list.entries = s.list.entries
  runtime : ∀ n : StationId, t.stations[n].runtime = s.stations[n].runtime
  firingPoint : s.list.firingPoint = s.position.tracking → t.list.firingPoint = t.position.tracking

theorem Untouched.trans {s t u : State} (h : Untouched s t) (h' : Untouched t u) : Untouched s u :=
  ⟨h'.position.trans h.position, h'.entries.trans h.entries, fun n => (h'.runtime n).trans (h.runtime n),
    fun hs => h'.firingPoint (h.firingPoint hs)⟩

theorem takeHalt_untouched (s : State) (c : Cause) : Untouched s (s.takeHalt c) := by
  unfold State.takeHalt
  split
  · exact ⟨rfl, rfl, fun _ => rfl, id⟩
  next ho =>
    rw [haltEntry_eq]
    obtain ⟨hlist, -, hstations, hposition⟩ :=
      (notes_report (s.haltTaken c) .halted 0 0 c.code ((s.haltTaken c).control.causeMask.zeroExtend 16)).parts
    obtain ⟨-, -, hposition', -, -, hentries, -⟩ := haltTaken_parts s c
    have hruntime := (Settles.halt c ho).enabled_of
    refine ⟨hposition.trans hposition', (congrArg ActionList.entries hlist).trans hentries, fun n => ?_, fun _ => ?_⟩
    · exact (congrArg (fun v : Vector Station 16 => v[n].runtime) hstations).trans (hruntime n)
    · exact (congrArg ActionList.firingPoint hlist).trans (congrArg PositionUnit.tracking (hposition.trans hposition')).symm
  · exact ⟨rfl, rfl, fun _ => rfl, id⟩

theorem arriveHalts_untouched (s : State) : Untouched s s.arriveHalts := by
  have hcount (t : State) (xs : List (Option Cause)) : Untouched t (t.countChoice xs) := by
    unfold State.countChoice
    split <;> exact ⟨rfl, rfl, fun _ => rfl, id⟩
  exact arriveHalts_induction (P := Untouched s) (fun t cs h => h.trans ⟨rfl, rfl, fun _ => rfl, id⟩)
    (fun t xs h => h.trans (hcount t xs)) (fun t c h => h.trans (takeHalt_untouched t c)) ⟨rfl, rfl, fun _ => rfl, id⟩

theorem fireDue_of_none {s : State} (fuel : Nat) (h : ∀ e ∈ s.list.entries, s.due e = false) : State.fireDue fuel s = s := by
  cases fuel with
  | zero => rfl
  | succ fuel => simp only [State.fireDue, takeFirst_none.2 h]

/-- The one due entry of the list fired. -/
theorem fireDue_one {s : State} {e : Entry} {before after : List Entry} {fuel : Nat} (hc : s.ConfigSound)
    (hentries : s.list.entries = before ++ e :: after) (hdue : s.due e = true)
    (hothers : ∀ x ∈ before ++ after, s.due x = false) :
    State.fireDue (fuel + 1) s = (s.left (before ++ after)).fireEntry e := by
  have htake : takeFirst s.due s.list.entries = some (e, before ++ after) := by
    rw [hentries]
    have hbefore : ∀ x ∈ before, s.due x = false := fun x hx => hothers x (List.mem_append_left _ hx)
    clear hentries hothers
    induction before with
    | nil => simp only [List.nil_append, takeFirst, hdue, if_true]
    | cons x rest ih =>
      simp only [List.cons_append, takeFirst, hbefore x List.mem_cons_self, Bool.false_eq_true, if_false,
        ih fun y hy => hbefore y (List.mem_cons_of_mem _ hy), Option.map_some]
  simp only [State.fireDue, htake]
  refine fireDue_of_none fuel fun x hx => ?_
  have hspares := spares_fireEntry (s := s.left (before ++ after)) (e := e) ⟨hc.1, hc.2, hc.3⟩ (beq_iff_eq.1 hdue)
  have hzero : (before ++ after).countP s.due = 0 :=
    List.countP_eq_zero.2 fun y hy => by simp [hothers y hy]
  have hcount : ((s.left (before ++ after)).fireEntry e).list.entries.countP s.due = 0 :=
    Nat.le_zero.1 (hzero ▸ hspares.due)
  have hdue' : ((s.left (before ++ after)).fireEntry e).due = s.due := due_congr hspares.position
  change ((s.left (before ++ after)).fireEntry e).due x = false
  rw [hdue']
  simpa using List.countP_eq_zero.1 hcount x hx

/-- What the firing of one entry is, by its kind (R72 to R74). -/
theorem fireEntry_kinds (s : State) (e : Entry) :
    (∀ n, e.kind = .on n → s.fireEntry e = s.fireOn n e.fire e.tag)
      ∧ (e.kind = .deadline → s.fireEntry e = s.fireDeadline e.tag)
      ∧ (e.kind = .retire → s.fireEntry e = s.retireItem e.tag)
      ∧ ∀ n r, e.kind = .off n r → s.fireEntry e = s := by
  refine ⟨fun n hk => ?_, fun hk => ?_, fun hk => ?_, fun n r hk => ?_⟩
  all_goals simp only [State.fireEntry, hk]

theorem settleTracking_at {s : State} {p : Pos} (h : s.control.op = .tracking) (hp : s.position.tracking = p) :
    s.settleTracking = { s with list := { s.list with firingPoint := p } } := hp ▸ settleTracking_tracking h

/-- Settles O12. -/
theorem advanceFiresWhatItReaches : Obligations.AdvanceFiresWhatItReaches := by
  refine ⟨fun s a b h hc hl => ?_, fun s a b e before after h hc hl hentries hfire hothers => ?_⟩
  · have ho : (s.advanced a b).control.op = .tracking := h.state
    have hc' : (s.advanced a b).ConfigSound := ⟨hc.1, hc.2, hc.3⟩
    have hfired := fireDue_fired s.list.entries.length hc' ho (List.countP_le_length (l := s.list.entries))
    have hfo := ((works_fireDue .list s.list.entries.length ho).frame.op).trans ho
    have hsettle := settleTracking_tracking hfo
    have huntouched := arriveHalts_untouched (State.settleTracking (State.fireDue s.list.entries.length (s.advanced a b)))
    have hposition : (State.settleTracking (State.fireDue s.list.entries.length (s.advanced a b))).position
        = (s.advanced a b).position := by
      rw [hsettle]
      exact hfired.position
    have hentries : (State.settleTracking (State.fireDue s.list.entries.length (s.advanced a b))).list.entries
        = (State.fireDue s.list.entries.length (s.advanced a b)).list.entries := by rw [hsettle]
    have hruntime (n : StationId) : (State.settleTracking (State.fireDue s.list.entries.length (s.advanced a b))).stations[n].runtime
        = (State.fireDue s.list.entries.length (s.advanced a b)).stations[n].runtime := by rw [hsettle]
    refine ⟨_, exec_advance_tracking h hl, huntouched.position.trans hposition, ?_, fun e he heq => ?_, ?_⟩
    · rw [huntouched.firingPoint (by rw [hsettle]), huntouched.position, hposition]
      rfl
    · rw [huntouched.entries, hentries] at he
      have hnone := hfired.none e he
      simp [State.due, State.advanced, heq] at hnone
    · obtain ⟨kept, hspared, hsub⟩ := List.sublistForall₂_iff.1 hfired.spared
      refine ⟨kept, by rw [huntouched.entries, hentries]; exact hsub, ?_⟩
      refine Eq.mp (congrArg (List.Forall₂ _ · kept) (List.filter_congr fun e _ => ?_)) hspared
      rw [Bool.eq_iff_iff, Bool.and_eq_true, decide_eq_true_eq]
      refine and_congr (by simp [State.due, State.advanced]) (decide_eq_true_iff.trans ?_)
      refine forall_congr' fun n => imp_congr_right fun _ => ?_
      rw [huntouched.runtime, hruntime]
      rfl
  · have ho : (s.advanced a b).control.op = .tracking := h.state
    have hc' : (s.advanced a b).ConfigSound := ⟨hc.1, hc.2, hc.3⟩
    refine ⟨?_, fireEntry_kinds _ e⟩
    obtain ⟨fuel, hfuel⟩ : ∃ fuel, s.list.entries.length = fuel + 1 := by
      rw [hentries]
      exact ⟨(before ++ after).length, by simp; omega⟩
    have hfired := fireDue_one (s := s.advanced a b) (fuel := fuel) hc' hentries (beq_iff_eq.2 hfire)
      fun x hx => beq_eq_false_iff_ne.2 (hothers x hx)
    have hfo := ((works_fireDue .list (fuel + 1) ho).frame.op).trans ho
    have hposition := (works_fireDue .list (fuel + 1) ho).frame.position
    rw [exec_advance_tracking h hl, hfuel, settleTracking_at hfo (congrArg PositionUnit.tracking hposition), hfired]
    rfl

end Sys2Proof.Machine
end

section
/-! PROOFS. Items (Chapter 3): verdicts that close, retirement, re-keying, and the entries of an admission. -/

namespace Sys2Proof.Machine

/-! ### Records -/

/-- The record of a live item changed: with distinct tags it is that item's alone. -/
theorem updItem_of_mem {s : State} (h : (s.queue.items.map Item.tag).Nodup) {i : Item} (hi : i ∈ s.queue.items)
    (f : Item → Item) : s.updItem i.tag f
      = { s with queue := { s.queue with items := s.queue.items.map (fun x => if x.tag = i.tag then f i else x) } } := by
  have hmap : s.queue.items.map (fun x => if x.tag = i.tag then f x else x)
      = s.queue.items.map (fun x => if x.tag = i.tag then f i else x) := by
    refine List.map_congr_left fun x hx => ?_
    split
    next htag => rw [List.inj_on_of_nodup_map h hx hi htag]
    next => rfl
  rw [State.updItem, hmap]

theorem findItem_updItem (s : State) (tag : Tag) {f : Item → Item} (hf : ∀ x, (f x).tag = x.tag) :
    (s.updItem tag f).findItem tag = (s.findItem tag).map f := by
  unfold State.findItem State.updItem
  dsimp only
  rw [List.find?_map]
  have hpred : ((fun x : Item => x.tag == tag) ∘ fun x => if x.tag = tag then f x else x) = fun x => x.tag == tag := by
    funext x
    simp only [Function.comp_apply]
    split
    · rw [hf]
    · rfl
  rw [hpred]
  cases hfind : s.queue.items.find? (fun x => x.tag == tag) with
  | none => rfl
  | some x =>
    have htag : x.tag = tag := by simpa using List.find?_some hfind
    simp [htag]

/-- A record that is freed may as well not have been changed. -/
theorem freeItem_updItem (s : State) (tag : Tag) {f : Item → Item} (hf : ∀ x, (f x).tag = x.tag) :
    (s.updItem tag f).freeItem tag = s.freeItem tag := by
  have hfilter : (s.queue.items.map fun x => if x.tag = tag then f x else x).filter (fun x => x.tag != tag)
      = s.queue.items.filter (fun x => x.tag != tag) := by
    rw [List.filter_map]
    have hpred : ((fun x : Item => x.tag != tag) ∘ fun x => if x.tag = tag then f x else x) = fun x => x.tag != tag := by
      funext x
      simp only [Function.comp_apply]
      split
      · rw [hf]
      · rfl
    rw [hpred]
    refine (List.map_congr_left (g := id) fun x hx => ?_).trans (List.map_id _)
    have htag : x.tag ≠ tag := by simpa using (List.mem_filter.1 hx).2
    exact if_neg htag
  rw [State.freeItem, State.freeItem, State.updItem]
  dsimp only
  rw [hfilter]

/-! ### Arrivals, and what they do not touch -/

theorem arrive_updItem (s : State) (r : EventRecord) (tag : Tag) (f : Item → Item) :
    (s.arrive r).updItem tag f = (s.updItem tag f).arrive r := by
  rw [arrive_eq, arrive_eq]
  rfl

theorem arrive_updLane (s : State) (r : EventRecord) (l : LaneId) (f : Lane → Lane) :
    (s.arrive r).updLane l f = (s.updLane l f).arrive r := by
  rw [arrive_eq, arrive_eq]
  rfl

theorem arrive_freeItem (s : State) (r : EventRecord) (tag : Tag) :
    (s.arrive r).freeItem tag = (s.freeItem tag).arrive r := by
  rw [arrive_eq, arrive_eq]
  rfl

theorem arrive_findItem (s : State) (r : EventRecord) (tag : Tag) : (s.arrive r).findItem tag = s.findItem tag := by
  rw [arrive_eq]
  rfl

theorem arrive_position (s : State) (r : EventRecord) : (s.arrive r).position = s.position := by
  rw [arrive_eq]

theorem arrive_linked (s : State) (r : EventRecord) (l : LaneId) (tag : Tag) :
    (s.arrive r).linked l tag = s.linked l tag := by
  rw [arrive_eq]
  rfl

/-! ### A verdict closes (R44) -/

theorem closeVerdict_undecided {s : State} {i : Item} (h : i.verdict = .undecided) :
    s.closeVerdict i = State.arrive
      ((s.updItem i.tag fun x => { x with verdict := s.lanes[i.lane].config.defaultVerdict.verdict, source := .default
                                          reason := 0, final := true }).countLane i.lane .defaults)
      (s.recordNow .verdictDefaulted (laneUnit i.lane) i.tag
        (BitVec.ofNat 16 s.lanes[i.lane].config.defaultVerdict.verdict.code) 0) := by
  rw [State.closeVerdict, h]
  rfl

theorem closeVerdict_decided {s : State} {i : Item} (h : i.verdict ≠ .undecided) :
    s.closeVerdict i = s.updItem i.tag fun x => { x with final := true } := by
  unfold State.closeVerdict
  split
  next h' => exact absurd h' h
  next => rfl
  next => rfl

/-- Settles O14. -/
theorem deadlineClosesTheVerdict : Obligations.DeadlineClosesTheVerdict := by
  intro s i htags hi
  have hfind := findItem_of_mem htags.distinct hi
  have hdeadline : s.fireDeadline i.tag = if i.final then s else s.closeVerdict i := by
    rw [State.fireDeadline, hfind]
  refine ⟨fun hf => ?_, fun hf hv => ?_, fun hf hv => ?_⟩
  · rw [hdeadline, if_pos hf]
  · rw [hdeadline, if_neg (by simp [hf]), closeVerdict_decided hv, updItem_of_mem htags.distinct hi]
  · rw [hdeadline, if_neg (by simp [hf]), closeVerdict_undecided hv, updItem_of_mem htags.distinct hi]
    rfl

/-! ### Retirement (R59, R60) -/

/-- The lane of an item that retires: counted, and with NO_TRAILING when its link is still on the item. -/
def Lane.retire (linked : Bool) (x : Lane) : Lane :=
  { x with
    counters := { x.counters with retired := x.counters.retired + 1
                                  noTrailing := x.counters.noTrailing + if linked then 1 else 0 }
    detector := if linked then x.detector.unlink else x.detector }

/-- The record of an item that retires, as it then stands (R59). -/
def Item.leaving (linked : Bool) (i : Item) : Item := { i with noTrailing := i.noTrailing || linked }

/-- Steps 2 to 4 of R59: NO_TRAILING, the count, and the event. -/
def State.noteLeaving (s : State) (i : Item) : State :=
  let s2 := (s.noteNoTrailing i).countLane i.lane .retired
  match s2.findItem i.tag with
  | none => s2
  | some record => s2.reportRetired record

theorem noteRetired_eq (s : State) (i : Item) :
    s.noteRetired i = (if i.final then s else s.closeVerdict i).noteLeaving i := rfl

theorem noteLeaving_freed {u : State} {i r : Item} (h : u.findItem i.tag = some r) :
    (u.noteLeaving i).freeItem i.tag
      = ((u.updLane i.lane (Lane.retire (u.linked i.lane i.tag))).freeItem i.tag).arrive
          { kind := .itemRetired, unit := laneUnit r.lane, low := (r.leaving (u.linked i.lane i.tag)).retiredLow
            tag := r.tag, position := u.position.tracking, auxA := r.retiredAux, auxB := r.fired } := by
  unfold State.noteLeaving State.noteNoTrailing
  cases hl : u.linked i.lane i.tag with
  | false =>
    have hlane : u.countLane i.lane .retired = u.updLane i.lane (Lane.retire false) :=
      congrArg (fun v => { u with lanes := v }) (upd_congr (by simp [Lane.retire, LaneCounters.bump]))
    have hfind : (u.updLane i.lane (Lane.retire false)).findItem i.tag = some r := h
    simp only [Bool.false_eq_true, if_false, hlane, hfind]
    rw [State.reportRetired, arrive_freeItem, Item.leaving, Bool.or_false]
    rfl
  | true =>
    have hunlink : (((u.updItem i.tag fun x => { x with noTrailing := true }).countLane i.lane .noTrailing).unlink i.lane
        i.tag).countLane i.lane .retired
        = (u.updLane i.lane (Lane.retire true)).updItem i.tag fun x => { x with noTrailing := true } := by
      have hlinked : ((u.updItem i.tag fun x => { x with noTrailing := true }).countLane i.lane .noTrailing).linked i.lane
          i.tag = true := by
        rw [← hl]
        unfold State.linked State.countLane State.updLane
        dsimp only
        rw [upd_get_same]
        rfl
      rw [State.unlink, if_pos hlinked, State.countLane, State.countLane, updLane_updLane, updLane_updLane]
      rfl
    have hfind : ((u.updLane i.lane (Lane.retire true)).updItem i.tag fun x => { x with noTrailing := true }).findItem i.tag
        = some (r.leaving true) := by
      rw [findItem_updItem _ _ (by exact fun _ => rfl), show (u.updLane i.lane (Lane.retire true)).findItem i.tag = some r from h,
        Item.leaving, Bool.or_true]
      rfl
    simp only [if_true, hunlink, hfind]
    rw [State.reportRetired, arrive_freeItem, freeItem_updItem _ _ (by exact fun _ => rfl)]
    rfl

/-- The lane of an item that retires, its verdict defaulted or not. -/
def Lane.retireDefaulted (defaulted linked : Bool) (x : Lane) : Lane :=
  { x with
    counters := { x.counters with retired := x.counters.retired + 1
                                  defaults := x.counters.defaults + if defaulted then 1 else 0
                                  noTrailing := x.counters.noTrailing + if linked then 1 else 0 }
    detector := if linked then x.detector.unlink else x.detector }

theorem Lane.retireDefaulted_false (linked : Bool) : Lane.retireDefaulted false linked = Lane.retire linked := by
  funext x
  simp [Lane.retireDefaulted, Lane.retire]

/-- The record of an item whose verdict has closed (R44). -/
def Item.closed (default : Verdict) (i : Item) : Item :=
  let defaulted : Bool := !i.final && i.verdict == .undecided
  { i with verdict := if defaulted then default else i.verdict
           source := if defaulted then .default else i.source
           reason := if defaulted then 0 else i.reason }

theorem Item.closed_of_not {default : Verdict} {i : Item} (h : (!i.final && i.verdict == .undecided) = false) :
    i.closed default = i := by
  simp only [Item.closed, h, Bool.false_eq_true, if_false]

theorem Item.closed_of {default : Verdict} {i : Item} (h : (!i.final && i.verdict == .undecided) = true) :
    i.closed default = { i with verdict := default, source := .default, reason := 0 } := by
  simp only [Item.closed, h, if_true]

/-- An item retires: its verdict closes, and the lane, the event and the record follow (R59). -/
theorem retireItem_eq {s : State} {i : Item} (h : s.findItem i.tag = some i) :
    let defaulted : Bool := !i.final && i.verdict == .undecided
    let default := s.lanes[i.lane].config.defaultVerdict.verdict
    let record := (i.closed default).leaving (s.linked i.lane i.tag)
    let freed := (s.updLane i.lane (Lane.retireDefaulted defaulted (s.linked i.lane i.tag))).freeItem i.tag
    s.retireItem i.tag = State.arrive
      (if defaulted then
        freed.arrive (s.recordNow .verdictDefaulted (laneUnit i.lane) i.tag (BitVec.ofNat 16 default.code) 0)
       else freed)
      { kind := .itemRetired, unit := laneUnit i.lane, low := record.retiredLow, tag := i.tag
        position := s.position.tracking, auxA := record.retiredAux, auxB := i.fired } := by
  dsimp only
  rw [retireItem_some h, noteRetired_eq]
  cases hd : (!i.final && i.verdict == .undecided) with
  | false =>
    rw [Item.closed_of_not hd, Lane.retireDefaulted_false]
    simp only [Bool.false_eq_true, if_false]
    split
    next hf => exact noteLeaving_freed h
    next hf =>
      have hv : i.verdict ≠ .undecided := by simpa [hf] using hd
      have hfind : (s.updItem i.tag fun x => { x with final := true }).findItem i.tag = some { i with final := true } :=
        (findItem_updItem s i.tag (f := fun x => { x with final := true }) fun _ => rfl).trans (by rw [h]; rfl)
      have hfree := freeItem_updItem (s.updLane i.lane (Lane.retire (s.linked i.lane i.tag))) i.tag
        (f := fun x => { x with final := true }) fun _ => rfl
      rw [closeVerdict_decided hv, noteLeaving_freed hfind]
      exact congrArg (State.arrive · _) hfree
  | true =>
    have hd' := hd
    simp only [Bool.and_eq_true, Bool.not_eq_true', beq_iff_eq] at hd'
    obtain ⟨hf, hv⟩ := hd'
    simp only [if_true]
    rw [if_neg (by simp [hf]), closeVerdict_undecided hv]
    generalize hdefault : s.lanes[i.lane].config.defaultVerdict.verdict = default
    have hfind : (State.arrive
        ((s.updItem i.tag fun x => { x with verdict := default, source := .default, reason := 0, final := true }).countLane
          i.lane .defaults)
        (s.recordNow .verdictDefaulted (laneUnit i.lane) i.tag (BitVec.ofNat 16 default.code) 0)).findItem i.tag
        = some { i with verdict := default, source := .default, reason := 0, final := true } := by
      rw [arrive_findItem]
      exact (findItem_updItem s i.tag (f := fun x => { x with
        verdict := default, source := .default, reason := 0, final := true }) fun _ => rfl).trans (by rw [h]; rfl)
    have hfree := freeItem_updItem
      (s.updLane i.lane (Lane.retireDefaulted true (s.linked i.lane i.tag))) i.tag
      (f := fun x => { x with verdict := default, source := .default, reason := 0, final := true }) fun _ => rfl
    have hlane : ((s.updItem i.tag fun x => { x with verdict := default, source := .default, reason := 0, final := true }).countLane
          i.lane .defaults).updLane i.lane (Lane.retire (s.linked i.lane i.tag))
        = (s.updLane i.lane (Lane.retireDefaulted true (s.linked i.lane i.tag))).updItem i.tag
            fun x => { x with verdict := default, source := .default, reason := 0, final := true } := by
      rw [State.countLane, updLane_updLane]
      rfl
    have hlinked : ((s.updItem i.tag fun x => { x with verdict := default, source := .default, reason := 0, final := true }).countLane
          i.lane .defaults).linked i.lane i.tag = s.linked i.lane i.tag := by
      unfold State.linked State.countLane State.updLane
      dsimp only
      rw [upd_get_same]
      rfl
    rw [noteLeaving_freed hfind, arrive_linked, arrive_updLane, arrive_freeItem, hlinked, hlane, hfree,
      arrive_position, Item.closed_of hd]
    rfl

/-! #### The words of ITEM_RETIRED (section 10.4) -/

/-- Fields that do not overlap add up. -/
theorem fieldAt_or_low {low : Word} (n v : Nat) (hlow : low.toNat < 2 ^ n) (hv : v * 2 ^ n < 65536) :
    low ||| fieldAt n v = BitVec.ofNat 16 (low.toNat + v * 2 ^ n) := by
  refine BitVec.eq_of_toNat_eq ?_
  have hsum := Nat.shiftLeft_add_eq_or_of_lt hlow v
  rw [Nat.shiftLeft_eq] at hsum
  have hor : low.toNat + v * 2 ^ n < 2 ^ 16 := by
    have h16 : low.toNat ||| v * 2 ^ n < 2 ^ 16 := Nat.or_lt_two_pow low.isLt hv
    rwa [Nat.or_comm, ← hsum, Nat.add_comm] at h16
  rw [BitVec.toNat_or, fieldAt, BitVec.toNat_ofNat, BitVec.toNat_ofNat, Nat.mod_eq_of_lt hv, Nat.mod_eq_of_lt hor,
    Nat.or_comm, ← hsum, Nat.add_comm]

theorem retiredLow_eq (i : Item) : i.retiredLow = (if i.short then 1 else 0) + (if i.long then 2 else 0)
    + (if i.noTrailing then 4 else 0) + (if i.missed then 8 else 0) := by
  rw [Item.retiredLow]
  cases i.short <;> cases i.long <;> cases i.noTrailing <;> cases i.missed <;> rfl

theorem retiredAux_eq (i : Item) : i.retiredAux = BitVec.ofNat 16 ((if i.confirmFail then 1 else 0) + 2 * i.verdict.code
    + 8 * i.source.code + 256 * i.reason.toNat) := by
  have hlow : (flagBit 0 i.confirmFail ||| fieldAt 1 i.verdict.code ||| fieldAt 3 i.source.code).toNat
      = (if i.confirmFail then 1 else 0) + 2 * i.verdict.code + 8 * i.source.code := by
    cases i.confirmFail <;> cases i.verdict <;> cases i.source <;> rfl
  have hsmall : (if i.confirmFail then 1 else 0) + 2 * i.verdict.code + 8 * i.source.code < 2 ^ 8 := by
    cases i.confirmFail <;> cases i.verdict <;> cases i.source <;> decide
  have hreason := i.reason.isLt
  rw [Item.retiredAux, fieldAt_or_low 8 i.reason.toNat (by rw [hlow]; exact hsmall) (by omega), hlow]
  congr 1
  omega

/-- Settles O15. -/
theorem retireFreesTheItem : Obligations.RetireFreesTheItem := by
  intro s i htags hi
  have hfind := findItem_of_mem htags.distinct hi
  refine ⟨by simp only [State.linked, beq_iff_eq], ?_⟩
  have hfilter : s.queue.items.filter (fun x => x.tag ≠ i.tag) = s.queue.items.filter (fun x => x.tag != i.tag) :=
    List.filter_congr fun x _ => by simp [bne, Bool.beq_eq_decide_eq]
  have hfreed (f : Lane → Lane) : (s.updLane i.lane f).freeItem i.tag
      = { s with
          queue := { s.queue with items := s.queue.items.filter (fun x => x.tag ≠ i.tag) }
          list := { s.list with entries := s.list.entries.map (fun e => if e.tag = i.tag then e.unmark else e) }
          lanes := upd s.lanes i.lane f } := by
    rw [hfilter]
    rfl
  rw [retireItem_eq hfind, hfreed, retiredLow_eq, retiredAux_eq]
  dsimp only [Item.leaving, Item.closed]
  generalize (!i.final && i.verdict == .undecided) = defaulted
  cases defaulted <;> rfl

/-! ### Re-keying (R79) -/

/-- What becomes of an entry at a re-keying, whether it stays or moves. -/
theorem rekey_after (s : State) (tag : Tag) (t : Pos) {after : Entry → Option Entry}
    (h : ∀ e, after e = (s.rekeyMoved tag t e <|> s.rekeyKept tag t e)) :
    (s.rekey tag t).list.entries.Perm (s.list.entries.filterMap after) := by
  refine (rekey_perm s tag t).trans ?_
  induction s.list.entries with
  | nil => exact .refl _
  | cons e rest ih =>
    have hrest := h e
    obtain ⟨hkept, hmoved⟩ | ⟨-, hkept, hmoved⟩ | ⟨-, hkept, hmoved⟩ | ⟨-, hkept, c, hmoved, -⟩ := rekey_cases s tag t e
    all_goals
      rw [hkept, hmoved] at hrest
      simp only [List.filterMap_cons, hkept, hmoved, hrest, Option.none_or, Option.some_or, Option.orElse_eq_orElse,
        Option.orElse_eq_or]
    · exact List.perm_middle.trans (ih.cons _)
    · exact List.perm_middle.trans (ih.cons _)
    · exact ih
    · exact ih.cons _

theorem hasReached_iff {s : State} {p : Pos} :
    s.hasReached p = true ↔ p = s.position.tracking ∨ 2 ^ 31 ≤ (p - s.position.tracking).toNat := by
  rw [State.hasReached, Bool.or_eq_true, beq_iff_eq, behind_iff]

/-- Settles O16. -/
theorem rekeyingShortensPulses : Obligations.RekeyingShortensPulses := by
  intro s tag trailing
  refine ⟨rekey_after s tag trailing fun e => ?_, rfl⟩
  cases e with
  | mk kind fire etag reached =>
    unfold State.rekeyMoved State.rekeyKept State.rekeyOf
    cases kind with
    | off n r =>
      cases r with
      | false => rfl
      | true =>
        dsimp only
        by_cases htag : etag = tag
        · rw [if_pos htag, if_pos (show (true && etag == tag) = true by simpa using htag)]
          generalize trailing + s.stations[n].config.pulseWord.zeroExtend 32 = c
          unfold rekeyResult
          by_cases hreached : c = s.position.tracking ∨ 2 ^ 31 ≤ (c - s.position.tracking).toNat
          · rw [if_pos hreached, if_pos (hasReached_iff.2 hreached)]
            rfl
          · rw [if_neg hreached, if_neg fun h => hreached (hasReached_iff.1 h)]
            by_cases hbehind : 2 ^ 31 ≤ (c - fire).toNat
            · rw [if_pos hbehind, if_pos (behind_iff.2 hbehind)]
              rfl
            · rw [if_neg hbehind, if_neg fun h => hbehind (behind_iff.1 h)]
              rfl
        · rw [if_neg htag, if_neg (by simpa using htag)]
          rfl
    | deadline => rfl
    | on n => rfl
    | retire => rfl

/-! ### The entries of an admission (R39, R40, R69) -/

/-- Settles O23. -/
theorem planOfAnItem : Obligations.PlanOfAnItem := by
  intro s l leading tag
  have hdependent (n : StationId) : s.stations[n].config.verdictDependent = true
      ↔ s.stations[n].config.selector ≠ .any ∨ s.stations[n].config.classMask ≠ 0xFFFF := verdictDependent_iff _
  have hpoint : s.hasDecisionPoint l = true
      ↔ ∃ n : StationId, (s.stations[n].runtime = .enabled ∧ s.stations[n].config.lane = l)
          ∧ (s.stations[n].config.selector ≠ .any ∨ s.stations[n].config.classMask ≠ 0xFFFF) := by
    simp only [State.hasDecisionPoint, List.any_eq_true, mem_laneStations, hdependent]
  refine ⟨if s.hasDecisionPoint l then [Entry.make .deadline (leading + wide s.lanes[l].config.decision) tag] else [],
    s.laneStations l, rfl, fun n => mem_laneStations, ?_, fun h => ?_, fun h => ?_, ?_⟩
  · exact (List.pairwise_lt_finRange 16).filter _
  · rw [if_pos (hpoint.2 h)]
    rfl
  · refine if_neg fun hp => ?_
    obtain ⟨n, hserves, hdep⟩ := hpoint.1 hp
    exact h n hserves hdep
  · rw [State.slotNeed]
    split <;> rfl

end Sys2Proof.Machine
end

section
/-! PROOFS. Stations and the confirmation monitor (Chapters 5 and 7): activation, watches and misses. -/

namespace Sys2Proof.Machine

/-! ### The condition and the holder (R77, R98 to R102) -/

theorem conditionFor_iff (c : StationConfig) (i : Item) : c.conditionFor i = true ↔ c.Matches i := by
  simp only [StationConfig.conditionFor, StationConfig.Matches, Bool.and_eq_true]
  refine and_congr_left fun _ => ?_
  cases c.selector <;> cases i.verdict <;> simp [Selector.accepts]

theorem ahead_past {p q : Pos} : ahead p q = true ↔ 0 < (p - q).toNat ∧ (p - q).toNat < 2 ^ 31 := ahead_iff

/-- Of the tail and the cap the one that comes first, both ahead of the fire position. -/
theorem behind_cap {tail fire : Pos} {cap : Word} (h : (tail - fire).toNat < 2 ^ 31) :
    (if behind tail (fire + cap.zeroExtend 32) then tail else fire + cap.zeroExtend 32)
      = if (tail - fire).toNat ≤ cap.toNat then tail else fire + cap.zeroExtend 32 := by
  have hcap := cap.isLt
  have hdist : (fire + cap.zeroExtend 32 - fire).toNat = cap.toNat := by rw [dist_offset, word_toNat]
  by_cases hle : (tail - fire).toNat ≤ cap.toNat
  · rw [if_pos hle]
    split
    · rfl
    next hbehind =>
      obtain hlt | heq := Nat.lt_or_eq_of_le hle
      · exfalso
        rw [behind_iff] at hbehind
        have hsub := dist_sub (p := fire + cap.zeroExtend 32) (q := tail) (r := fire) (by omega)
        have hneg : (tail - (fire + cap.zeroExtend 32)).toNat
            = (2 ^ 32 - (fire + cap.zeroExtend 32 - tail).toNat) % 2 ^ 32 := by
          rw [← neg_sub, BitVec.toNat_neg]
        omega
      · exact dist_eq (hdist.trans heq.symm)
  · rw [if_neg hle, if_neg]
    rw [behind_iff]
    have hsub := dist_sub (p := tail) (q := fire + cap.zeroExtend 32) (r := fire) (by omega)
    omega

theorem itemOff_passed {c : StationConfig} {fire t : Pos} (h : (t + c.pulseWord.zeroExtend 32 - fire).toNat = 0
    ∨ 2 ^ 31 ≤ (t + c.pulseWord.zeroExtend 32 - fire).toNat) : itemOff c fire (some t) = none := by
  rw [itemOff]
  exact if_neg fun hahead => by
    rw [ahead_past] at hahead
    omega

theorem itemOff_trailing {c : StationConfig} {fire t : Pos} (h1 : 0 < (t + c.pulseWord.zeroExtend 32 - fire).toNat)
    (h2 : (t + c.pulseWord.zeroExtend 32 - fire).toNat < 2 ^ 31) :
    itemOff c fire (some t) = some (if (t + c.pulseWord.zeroExtend 32 - fire).toNat ≤ c.capWord.toNat
      then t + c.pulseWord.zeroExtend 32 else fire + c.capWord.zeroExtend 32, false) := by
  rw [itemOff, ← behind_cap h2]
  exact if_pos (ahead_past.2 ⟨h1, h2⟩)

/-- The holder of an activation, in each pulse mode (R77, R100 to R102). -/
theorem placeHolder_of_placed {s placed : State} {n : StationId} {fire : Pos} {i : Item}
    (h : s.HolderPlaced n fire i placed) : s.placeHolder n fire i = some placed := by
  unfold State.placeHolder
  dsimp only
  obtain ⟨hm, rfl⟩ | ⟨hm, rfl⟩ | ⟨hm, ht, rfl⟩ | ⟨hm, t, ht, h1, h2, rfl⟩ := h
  · rw [hm]
    rfl
  · rw [hm]
    refine congrArg some (congrArg (fun v => { s with stations := v }) (upd_congr ?_))
    cases s.stations[n].pulse <;> rfl
  · rw [hm, ht]
    rfl
  · rw [hm, ht]
    dsimp only
    rw [itemOff_trailing h1 h2]
    rfl

theorem placeHolder_passed {s : State} {n : StationId} {fire t : Pos} {i : Item} (hm : s.stations[n].config.mode = .item)
    (ht : i.trailing = some t) (h : (t + s.stations[n].config.pulseWord.zeroExtend 32 - fire).toNat = 0
      ∨ 2 ^ 31 ≤ (t + s.stations[n].config.pulseWord.zeroExtend 32 - fire).toNat) : s.placeHolder n fire i = none := by
  unfold State.placeHolder
  dsimp only
  rw [hm, ht]
  dsimp only
  rw [itemOff_passed h]
  rfl

/-! ### The activation (R98, R99) -/

theorem fireOn_not_matching {s : State} {n : StationId} {i : Item} (fire : Pos) (hfind : s.findItem i.tag = some i)
    (h : ¬ s.stations[n].config.Matches i) : s.fireOn n fire i.tag = s := by
  rw [State.fireOn, hfind]
  exact if_neg fun hc => h ((conditionFor_iff ..).1 hc)

theorem fireOn_passed {s : State} {n : StationId} {fire : Pos} {i : Item} (hfind : s.findItem i.tag = some i)
    (h : s.placeHolder n fire i = none) : s.fireOn n fire i.tag = s := by
  rw [State.fireOn, hfind]
  dsimp only
  rw [h]
  exact ite_self _

theorem fireOn_placed {s placed : State} {n : StationId} {fire : Pos} {i : Item} (hfind : s.findItem i.tag = some i)
    (hm : s.stations[n].config.Matches i) (h : s.placeHolder n fire i = some placed) :
    s.fireOn n fire i.tag = placed.markAndWatch n i := by
  rw [State.fireOn, hfind]
  dsimp only
  rw [if_pos ((conditionFor_iff ..).2 hm), h]

/-- The item's fired mask with the station's mark (step 2 of R99). -/
def State.fireMarked (s : State) (n : StationId) (i : Item) : State :=
  { s with queue := { s.queue with items := s.queue.items.map (fun x =>
      if x.tag = i.tag then { i with fired := i.fired ||| (1#16 <<< n.val) } else x) } }

theorem updItem_fired {s : State} (h : (s.queue.items.map Item.tag).Nodup) {i : Item} (hi : i ∈ s.queue.items)
    (n : StationId) : s.updItem i.tag (fun x => { x with fired := x.fired ||| BitVec.twoPow 16 n.val }) = s.fireMarked n i := by
  rw [updItem_of_mem h hi]
  rfl

theorem fireMarked_tags (s : State) (n : StationId) (i : Item) :
    (s.fireMarked n i).queue.items.map Item.tag = s.queue.items.map Item.tag := by
  refine (List.map_map ..).trans (List.map_congr_left fun x _ => ?_)
  rw [Function.comp_apply]
  split
  next h => exact h.symm
  next => rfl

theorem placeHolder_station {s t : State} {n : StationId} {fire : Pos} {i : Item} (h : s.placeHolder n fire i = some t)
    (m : StationId) : ∃ pulse, t.stations[m] = { s.stations[m] with pulse := pulse } := by
  obtain ⟨pos, r, rfl, -⟩ | rfl := placeHolder_cases h
  · exact ⟨_, rfl⟩
  · rw [State.loadPulse, State.updStation, upd_get]
    split
    next h =>
      subst h
      exact ⟨_, rfl⟩
    next => exact ⟨_, rfl⟩

theorem placeHolder_rest {s t : State} {n : StationId} {fire : Pos} {i : Item} (h : s.placeHolder n fire i = some t) :
    t.queue = s.queue ∧ t.globals = s.globals := by
  obtain ⟨pos, r, rfl, -⟩ | rfl := placeHolder_cases h <;> exact ⟨rfl, rfl⟩

/-! ### Misses (R96, R130, R131) -/

/-- CONFIRM_FAIL set on the live item that holds the watch's tag and lane (step 2 of R130). -/
def State.flagMissed (s : State) (w : Watch) : State :=
  match s.findInLane w.tag w.lane with
  | none => s
  | some _ => s.updItem w.tag fun i => { i with confirmFail := true }

theorem flagMissed_eq {s : State} (h : (s.queue.items.map Item.tag).Nodup) (w : Watch) :
    s.flagMissed w = { s with queue := { s.queue with items := s.queue.items.map (fun i =>
      if i.tag = w.tag ∧ i.lane = w.lane then { i with confirmFail := true } else i) } } := by
  unfold State.flagMissed
  cases hfind : s.findItem w.tag with
  | none =>
    have hnone (i : Item) (hi : i ∈ s.queue.items) : i.tag ≠ w.tag := by
      simpa using List.find?_eq_none.1 hfind i hi
    have hself : s.queue.items.map (fun i => if i.tag = w.tag ∧ i.lane = w.lane then { i with confirmFail := true } else i) = s.queue.items :=
      (List.map_congr_left fun i hi => if_neg fun hboth => hnone i hi hboth.1).trans (List.map_id _)
    rw [State.findInLane, hfind, hself]
    rfl
  | some j =>
    have hj : j ∈ s.queue.items := List.mem_of_find?_eq_some hfind
    have htag : j.tag = w.tag := by simpa using List.find?_some hfind
    have honly (i : Item) (hi : i ∈ s.queue.items) (hit : i.tag = w.tag) : i = j :=
      List.inj_on_of_nodup_map h hi hj (hit.trans htag.symm)
    by_cases hl : j.lane = w.lane
    · have hmap : s.queue.items.map (fun i => if i.tag = w.tag ∧ i.lane = w.lane then { i with confirmFail := true } else i)
          = s.queue.items.map (fun i => if i.tag = w.tag then { i with confirmFail := true } else i) := by
        refine List.map_congr_left fun i hi => if_congr ⟨And.left, fun hit => ⟨hit, ?_⟩⟩ rfl rfl
        rw [honly i hi hit, hl]
      rw [State.findInLane, hfind, Option.filter_some, if_pos (by simpa using hl), hmap]
      rfl
    · have hself : s.queue.items.map (fun i => if i.tag = w.tag ∧ i.lane = w.lane then { i with confirmFail := true } else i) = s.queue.items := by
        refine (List.map_congr_left (g := id) fun i hi => if_neg fun hboth => ?_).trans (List.map_id _)
        rw [honly i hi hboth.1] at hboth
        exact hl hboth.2
      rw [State.findInLane, hfind, Option.filter_some, if_neg (by simpa using hl), hself]

theorem arrive_updStation (s : State) (r : EventRecord) (n : StationId) (f : Station → Station) :
    (s.arrive r).updStation n f = (s.updStation n f).arrive r := by
  rw [arrive_eq, arrive_eq]
  rfl

theorem arrive_items (s : State) (r : EventRecord) : (s.arrive r).queue = s.queue := by
  rw [arrive_eq]

/-- The first steps of a miss leave the runtime state and the watches alone. -/
theorem noteMiss_eq {s : State} (h : (s.queue.items.map Item.tag).Nodup) (n : StationId) (w : Watch) (aux : Word) :
    s.noteMiss n w aux = s.missTaken n w s.stations[n].watches s.stations[n].runtime aux := by
  have hq : ((s.report .confirmMissing (stationUnit n) w.tag aux 0).queue.items.map Item.tag).Nodup := by
    rw [report_eq, arrive_items]
    exact h
  calc s.noteMiss n w aux
    _ = ((s.report .confirmMissing (stationUnit n) w.tag aux 0).flagMissed w).updStation n
          fun st => { st with misses := raiseMisses st.misses } := rfl
    _ = s.missTaken n w s.stations[n].watches s.stations[n].runtime aux := by
      rw [flagMissed_eq hq, report_eq, State.missTaken, arrive_eq, arrive_eq]
      rfl

theorem noteMiss_atLimit (s : State) (n : StationId) (w : Watch) (aux : Word) :
    (s.noteMiss n w aux).stations[n].atLimit = true ↔ s.AtLastMiss n := by
  rw [noteMiss_station]
  simp only [Station.atLimit, State.AtLastMiss, State.nextMisses, raiseMisses, Bool.and_eq_true, beq_iff_eq, bne_iff_ne,
    and_assoc, ne_eq]

theorem missHead_noted {s : State} {n : StationId} {w : Watch} {rest : List Watch} (h : s.stations[n].watches = w :: rest)
    (aux : Word) :
    s.missHead n aux
      = if (s.noteMiss n w aux).stations[n].atLimit then
          ((s.noteMiss n w aux).updStation n fun st => { st with watches := rest }).failStation n w.tag
        else (s.noteMiss n w aux).updStation n fun st => { st with watches := rest } := by
  have hlimit : (((s.noteMiss n w aux).updStation n fun st => { st with watches := rest }).stations[n]).atLimit
      = (s.noteMiss n w aux).stations[n].atLimit := by
    rw [updStation_get_same]
    rfl
  rw [State.missHead, h]
  dsimp only
  rw [declareMissed_eq, noteMiss_updStation, hlimit]

theorem missTaken_updStation (s : State) (n : StationId) (w : Watch) (left : List Watch) (r : Runtime) (aux : Word)
    (after : List Watch) (r' : Runtime) :
    ((s.missTaken n w left r aux).updStation n fun st => { st with runtime := r', watches := after })
      = s.missTaken n w after r' aux := by
  rw [State.missTaken, arrive_updStation, State.missTaken, State.updStation, upd_upd]

/-- The head watch missed, with the station not at its limit. -/
theorem missHead_taken {s : State} (hnodup : (s.queue.items.map Item.tag).Nodup) {n : StationId} {w : Watch}
    {rest : List Watch} (h : s.stations[n].watches = w :: rest) (hlimit : ¬ s.AtLastMiss n) (aux : Word) :
    s.missHead n aux = s.missTaken n w rest s.stations[n].runtime aux := by
  have hruntime : (s.noteMiss n w aux).stations[n].runtime = s.stations[n].runtime := by rw [noteMiss_station]
  have hkeep : ((s.noteMiss n w aux).updStation n fun st => { st with watches := rest })
      = (s.noteMiss n w aux).updStation n fun st => { st with runtime := s.stations[n].runtime, watches := rest } :=
    congrArg (fun v => { s.noteMiss n w aux with stations := v }) (upd_congr (by rw [← hruntime]))
  rw [missHead_noted h, if_neg (fun hat => hlimit ((noteMiss_atLimit ..).1 hat)), hkeep, noteMiss_eq hnodup,
    missTaken_updStation]

/-- The head watch missed, with the station at its limit: it fails (R96). -/
theorem missHead_fails {s : State} (hnodup : (s.queue.items.map Item.tag).Nodup) {n : StationId} {w : Watch}
    {rest : List Watch} (h : s.stations[n].watches = w :: rest) (hlimit : s.AtLastMiss n) (aux : Word) :
    s.missHead n aux
      = if s.globals.haltOnFail then (s.missFails n w aux).requestHalt .stationFail else s.missFails n w aux := by
  have hentries (es : List Entry) : es.filter (fun e => !e.isOnOf n) = es.filter (fun e => e.kind ≠ .on n) := by
    refine List.filter_congr fun e _ => ?_
    unfold Entry.isOnOf
    cases hk : e.kind <;> simp [beq_eq_decide]
  have hwithdraw : ((s.noteMiss n w aux).updStation n fun st => { st with watches := rest }).withdraw n .failed
      = { s.missTaken n w [] .failed aux with list := { s.list with entries := s.list.entries.filter (fun e => e.kind ≠ .on n) } } := by
    have htwice := updStation_updStation ((s.noteMiss n w aux).removeOnEntries n) n
      (fun st => { st with watches := rest }) (fun st => { st with runtime := .failed, watches := [] })
    rw [← missTaken_updStation s n w s.stations[n].watches s.stations[n].runtime aux, ← noteMiss_eq hnodup, ← hentries]
    refine Eq.trans htwice ?_
    have hlist : (s.noteMiss n w aux).list = s.list := by
      rw [noteMiss_eq hnodup, State.missTaken, arrive_eq]
    rw [State.removeOnEntries, State.updEntries, hlist]
    rfl
  have hglobals : ((s.noteMiss n w aux).updStation n fun st => { st with watches := rest }).globals = s.globals := by
    rw [updStation_globals, noteMiss_eq hnodup, State.missTaken, arrive_eq]
  rw [missHead_noted h, if_pos ((noteMiss_atLimit ..).2 hlimit), failStation_eq, State.failing, hglobals, hwithdraw]
  split
  · simp only [report_eq, arrive_eq, State.missFails, State.missTaken]
    rfl
  · simp only [report_eq, arrive_eq, State.missFails, State.missTaken]
    rfl

theorem missTaken_station (s : State) (n : StationId) (w : Watch) (left : List Watch) (r : Runtime) (aux : Word) :
    (s.missTaken n w left r aux).stations[n]
      = { s.stations[n] with runtime := r, watches := left, misses := s.nextMisses n } := by
  rw [State.missTaken, arrive_eq]
  exact upd_get_same ..

theorem missFails_runtime (s : State) (n : StationId) (w : Watch) (aux : Word) :
    (s.missFails n w aux).stations[n].runtime = .failed := by
  rw [State.missFails, arrive_eq]
  exact congrArg Station.runtime (missTaken_station s n w [] .failed aux)

/-! ### A watch started (R125) -/

/-- A watch for the item at the end of a station's queue, of this window. -/
def State.watching (s : State) (n : StationId) (i : Item) (window : Word) : State :=
  { s with stations := upd s.stations n (fun st =>
      { st with watches := st.watches ++ [{ tag := i.tag, lane := i.lane, timeLeft := window }] }) }

theorem appendWatch_watching (s : State) (n : StationId) (i : Item) :
    s.appendWatch n i.tag i.lane = s.watching n i s.stations[n].config.window :=
  congrArg (fun v => { s with stations := v }) (upd_congr rfl)

theorem startWatch_room {s : State} {n : StationId} (h : s.stations[n].watches.length < 4) (i : Item) :
    s.startWatch n i.tag i.lane = s.watching n i s.stations[n].config.window := by
  rw [State.startWatch, if_pos (show _ < Config.watchDepth from h), appendWatch_watching]

theorem startWatch_taken {s : State} (hnodup : (s.queue.items.map Item.tag).Nodup) {n : StationId} {w : Watch}
    {rest : List Watch} (h : s.stations[n].watches = w :: rest) (hfull : rest.length = 3)
    (hruntime : s.stations[n].runtime = .enabled) (hlimit : ¬ s.AtLastMiss n) (i : Item) :
    s.startWatch n i.tag i.lane = (s.missTaken n w rest .enabled 1).watching n i s.stations[n].config.window := by
  have hroom : ¬ s.stations[n].watches.length < Config.watchDepth := by
    rw [h, List.length_cons, hfull]
    exact lt_irrefl 4
  have hst := missTaken_station s n w rest .enabled 1
  rw [State.startWatch, if_neg hroom]
  dsimp only
  rw [missHead_taken hnodup h hlimit, hruntime, if_pos (by rw [hst]; rfl), appendWatch_watching, hst]

theorem startWatch_fails {s : State} (hnodup : (s.queue.items.map Item.tag).Nodup) {n : StationId} {w : Watch}
    {rest : List Watch} (h : s.stations[n].watches = w :: rest) (hfull : rest.length = 3) (hlimit : s.AtLastMiss n)
    (tag : Tag) (l : LaneId) :
    s.startWatch n tag l
      = if s.globals.haltOnFail then (s.missFails n w 1).requestHalt .stationFail else s.missFails n w 1 := by
  have hroom : ¬ s.stations[n].watches.length < Config.watchDepth := by
    rw [h, List.length_cons, hfull]
    exact lt_irrefl 4
  have hmiss := missHead_fails hnodup h hlimit 1
  have hfailed : (s.missHead n 1).stations[n].runtime = .failed := by
    rw [hmiss]
    split
    · exact missFails_runtime s n w 1
    · exact missFails_runtime s n w 1
  rw [State.startWatch, if_neg hroom]
  dsimp only
  rw [hfailed, if_neg (by decide), hmiss]

/-! ### The activation whole (R98, R99, R125) -/

theorem fireMarked_config {s placed : State} {n : StationId} {fire : Pos} {i : Item}
    (h : s.placeHolder n fire i = some placed) : (placed.fireMarked n i).stations[n].config = s.stations[n].config := by
  obtain ⟨pulse, hst⟩ := placeHolder_station h n
  exact (congrArg Station.config hst :)

theorem markAndWatch_eq {s placed : State} {n : StationId} {fire : Pos} {i : Item}
    (hnodup : (s.queue.items.map Item.tag).Nodup) (hi : i ∈ s.queue.items) (h : s.placeHolder n fire i = some placed) :
    (s.stations[n].config.confirm = none → placed.markAndWatch n i = placed.fireMarked n i)
    ∧ ∀ input, s.stations[n].config.confirm = some input →
        placed.markAndWatch n i = (placed.fireMarked n i).startWatch n i.tag i.lane := by
  obtain ⟨hqueue, -⟩ := placeHolder_rest h
  have hmarked := updItem_fired (s := placed) (by rw [hqueue]; exact hnodup) (by rw [hqueue]; exact hi) n
  have hconfirm := congrArg StationConfig.confirm (fireMarked_config h)
  rw [State.markAndWatch, hmarked, hconfirm]
  exact ⟨fun hc => by rw [hc], fun input hc => by rw [hc]⟩

/-- Settles O17, by the branches of the activation. -/
theorem onEntryActivates : Obligations.OnEntryActivates := by
  unfold Obligations.OnEntryActivates
  intro s n fire i hs hi
  dsimp only
  have hnodup := hs.distinct
  have hfind := findItem_of_mem hnodup hi
  refine ⟨fireOn_not_matching fire hfind, fun placed hm hplaced => ?_⟩
  have hholder := placeHolder_of_placed hplaced
  obtain ⟨hnone, hsome⟩ := markAndWatch_eq hnodup hi hholder
  obtain ⟨hqueue, hglobals⟩ := placeHolder_rest hholder
  obtain ⟨pulse, hst⟩ := placeHolder_station hholder n
  rw [fireOn_placed hfind hm hholder, ← hqueue]
  have hconfig := fireMarked_config hholder
  have hst' : (placed.fireMarked n i).stations[n] = { s.stations[n] with pulse := pulse } := hst
  have hlast : (placed.fireMarked n i).AtLastMiss n ↔ s.AtLastMiss n := by
    rw [State.AtLastMiss, State.AtLastMiss, State.nextMisses, State.nextMisses, hst']
  have hmarkedNodup : ((placed.fireMarked n i).queue.items.map Item.tag).Nodup := by
    rw [fireMarked_tags, hqueue]
    exact hnodup
  refine ⟨hnone, fun input hc => ?_⟩
  rw [hsome input hc]
  refine ⟨fun hroom => ?_, fun w rest hr hw hfull => ⟨fun hmiss => ?_, fun hmiss => ?_⟩⟩
  · rw [startWatch_room (by rw [hst']; exact hroom), hconfig]
    rfl
  · rw [startWatch_taken hmarkedNodup (by rw [hst']; exact hw) hfull (by rw [hst']; exact hr)
      (fun hat => hmiss (hlast.1 hat)), hconfig]
    rfl
  · rw [startWatch_fails hmarkedNodup (by rw [hst']; exact hw) hfull (hlast.2 hmiss),
      show (placed.fireMarked n i).globals = s.globals from hglobals]
    rfl

/-- Settles O18: the holder of ITEM mode, or none for an item that has passed. -/
theorem itemModeFollowsTheProduct : Obligations.ItemModeFollowsTheProduct := by
  unfold Obligations.ItemModeFollowsTheProduct
  intro s n fire i hs hi hmode hm
  dsimp only
  have hnodup := hs.distinct
  have hfind := findItem_of_mem hnodup hi
  have hactivated {placed : State} (hc : s.stations[n].config.confirm = none) (h : s.HolderPlaced n fire i placed) :
      s.fireOn n fire i.tag = placed.fireMarked n i := by
    have hholder := placeHolder_of_placed h
    rw [fireOn_placed hfind hm hholder, (markAndWatch_eq hnodup hi hholder).1 hc]
  refine ⟨fun hc ht => ?_, fun t ht => ⟨fun hpast => ?_, fun hc h1 h2 => ?_⟩⟩
  · exact hactivated hc (.inr (.inr (.inl ⟨hmode, ht, rfl⟩)))
  · exact fireOn_passed hfind (placeHolder_passed hmode ht hpast)
  · exact hactivated hc (.inr (.inr (.inr ⟨hmode, t, ht, h1, h2, rfl⟩)))

/-! ### A watch that runs out (R129) -/

/-- A request that a block raises when no other is on its way, in any operating state. -/
theorem raised_arrives {s : State} {c : Cause} (h : s.control.requests = []) :
    s.Requested c (.next (s.requestHalt c).arriveHalts) := by
  by_cases ho : s.control.op = .setup
  · have hw : (s.requestHalt c).arriveHalts = s := by
      rw [State.arriveHalts, show (s.requestHalt c).control.op = .setup from ho]
      exact h ▸ withRequests_self s
    rw [hw]
    exact ⟨fun _ => by rw [takeHalt_setup c ho], fun _ => ⟨s.choices, .inl (by rw [takeHalt_setup c ho])⟩⟩
  · exact requested_arrives h ho

theorem missTaken_control (s : State) (n : StationId) (w : Watch) (left : List Watch) (r : Runtime) (aux : Word) :
    (s.missTaken n w left r aux).control = s.control := by
  rw [State.missTaken, arrive_eq]

theorem missFails_control (s : State) (n : StationId) (w : Watch) (aux : Word) :
    (s.missFails n w aux).control = s.control := by
  rw [State.missFails, arrive_eq]
  exact missTaken_control ..

/-- Settles O19, by the outcomes of a miss. -/
theorem watchExpiryIsAMiss : Obligations.WatchExpiryIsAMiss := by
  unfold Obligations.WatchExpiryIsAMiss
  intro s n w rest hquiet hs hw
  dsimp only
  obtain ⟨-, hrequests⟩ := id hquiet
  rw [exec_watchExpiry, atPin_quiet _ _ hquiet]
  dsimp only [id]
  refine ⟨fun hmiss => ?_, fun hmiss hoff => ?_, fun hmiss hon => ?_⟩
  · rw [missHead_taken hs.distinct hw hmiss, arriveHalts_none (by rw [missTaken_control]; exact hrequests)]
  · rw [missHead_fails hs.distinct hw hmiss, hoff]
    exact congrArg Host.Outcome.next (arriveHalts_none ((congrArg Control.requests (missFails_control ..)).trans hrequests))
  · rw [missHead_fails hs.distinct hw hmiss, hon]
    exact raised_arrives (by rw [missFails_control]; exact hrequests)

end Sys2Proof.Machine
end

section
/-! PROOFS. Time: holders that end, and the clock period (Chapters 5 to 7, section 10.8). -/

namespace Sys2Proof.Machine

/-! ### Holders that end (R103, R104, R110) -/

theorem countP_upd_same {α : Type} {k : Nat} {v : Vector α k} {i : Fin k} {f : α → α} {p : α → Bool}
    (h : p (f v[i]) = p v[i]) : (upd v i f).toList.countP p = v.toList.countP p := by
  have hmem : p v[i] = true → 0 < v.toList.countP p := fun hp => List.countP_pos_iff.2 ⟨v[i], by simp, hp⟩
  rw [upd, Vector.toList_set, List.countP_set (by simp), h]
  simp only [Vector.getElem_toList]
  by_cases hp : p v[i] = true
  · rw [if_pos (show p v[i.val] = true from hp), if_pos hp]
    have := hmem hp
    omega
  · rw [if_neg (show ¬ p v[i.val] = true from hp), if_neg hp]
    rfl

theorem countP_upd_stopped {α : Type} {k : Nat} {v : Vector α k} {i : Fin k} {f : α → α} {p : α → Bool}
    (hbefore : p v[i] = true) (hafter : p (f v[i]) = false) :
    v.toList.countP p = (upd v i f).toList.countP p + 1 := by
  have hpos : 0 < v.toList.countP p := List.countP_pos_iff.2 ⟨v[i], by simp, hbefore⟩
  rw [upd, Vector.toList_set, List.countP_set (by simp), hafter]
  simp only [Vector.getElem_toList]
  rw [if_pos (show p v[i.val] = true from hbefore), if_neg (by simp)]
  omega

/-- The state with the time pulse of a station set. -/
def State.withPulse (s : State) (n : StationId) (p : Option TimePulse) : State :=
  { s with stations := upd s.stations n (fun st => { st with pulse := p }) }

theorem offDrives_withPulse (s : State) (n : StationId) (p : Option TimePulse) (o : OutputId) :
    (s.withPulse n p).offDrives o = s.offDrives o := by
  funext e
  unfold State.offDrives
  cases e.kind with
  | off m r =>
    have hconfig : (s.withPulse n p).stations[m].config = s.stations[m].config :=
      upd_get_proj (v := s.stations) (f := fun st => { st with pulse := p }) n m Station.config rfl
    dsimp only
    rw [hconfig]
  | deadline => rfl
  | on m => rfl
  | retire => rfl

theorem holders_withPulse (s : State) (n : StationId) (p : Option TimePulse) (o : OutputId) :
    (s.withPulse n p).holders o
      = s.list.entries.countP (s.offDrives o) + (s.withPulse n p).stations.toList.countP (Station.pulseDrives o) := by
  rw [State.holders, offDrives_withPulse]
  rfl

/-- A time pulse that stops takes one holder from its station's line, and from no other. -/
theorem holders_stopped {s : State} {n : StationId} {p : TimePulse} (h : s.stations[n].pulse = some p) :
    s.holders s.stations[n].config.output = (s.withPulse n none).holders s.stations[n].config.output + 1
    ∧ ∀ o, o ≠ s.stations[n].config.output → s.holders o = (s.withPulse n none).holders o := by
  refine ⟨?_, fun o ho => ?_⟩
  · rw [holders_withPulse, State.holders, Nat.add_assoc]
    refine congrArg _ (countP_upd_stopped ?_ rfl)
    rw [Station.pulseDrives, h]
    exact beq_self_eq_true _
  · rw [holders_withPulse, State.holders]
    refine congrArg _ (countP_upd_same ?_).symm
    have hne : (s.stations[n].config.output == o) = false := beq_eq_false_iff_ne.2 ho.symm
    simp only [Station.pulseDrives, hne, Bool.and_false]

theorem takePulseEnd_eq (s : State) (n : StationId) :
    s.takePulseEnd n = s.withPulse n (s.stations[n].pulse.bind (TimePulse.atEnd s.position.tracking)) :=
  congrArg (fun v => { s with stations := v }) (upd_congr rfl)

theorem exec_timePulseEnd_quiet {s : State} (h : s.Quiet) (n : StationId) :
    exec (.timePulseEnd n) s
      = .next (s.withPulse n (s.stations[n].pulse.bind (TimePulse.atEnd s.position.tracking))) := by
  obtain ⟨-, hrequests⟩ := id h
  rw [exec_timePulseEnd, atPin_quiet _ _ h, ← takePulseEnd_eq]
  exact congrArg Host.Outcome.next (arriveHalts_none hrequests)

theorem withPulse_self (s : State) (n : StationId) : s.withPulse n s.stations[n].pulse = s := by
  have hset : upd s.stations n (fun st => { st with pulse := s.stations[n].pulse }) = s.stations :=
    Vector.set_getElem_self ..
  rw [State.withPulse, hset]

/-- An activation in TIME mode of a station without a confirm input loads its pulse (R102). -/
theorem fireOn_time {s : State} {n : StationId} {i : Item} (fire : Pos) (hnodup : (s.queue.items.map Item.tag).Nodup)
    (hi : i ∈ s.queue.items) (hmode : s.stations[n].config.mode = .time) (hc : s.stations[n].config.confirm = none)
    (hm : s.stations[n].config.Matches i) : s.fireOn n fire i.tag = (s.loadPulse n).fireMarked n i := by
  have hholder : s.placeHolder n fire i = some (s.loadPulse n) := by
    unfold State.placeHolder
    dsimp only
    rw [hmode]
  rw [fireOn_placed (findItem_of_mem hnodup hi) hm hholder, (markAndWatch_eq hnodup hi hholder).1 hc]

theorem loadPulse_pulse (s : State) (n : StationId) :
    (s.loadPulse n).stations[n].pulse
      = some { left := s.stations[n].config.pulseWord
               reloaded := s.stations[n].pulse.map fun _ => s.position.tracking } :=
  congrArg Station.pulse (updStation_get_same ..)

theorem withPulse_pulse (s : State) (n : StationId) (p : Option TimePulse) : (s.withPulse n p).stations[n].pulse = p :=
  congrArg Station.pulse (upd_get_same ..)

/-- Settles O13. -/
theorem holdersEndOneByOne : Obligations.HoldersEndOneByOne := by
  unfold Obligations.HoldersEndOneByOne
  refine ⟨fun s e before after n r hentries hk => ?_, fun s n hquiet => ?_,
    fun s n fire i p hquiet hs hi hmode hc hm hp => ?_⟩
  · dsimp only
    obtain ⟨-, -, -, hoff⟩ := fireEntry_kinds { s with list := { s.list with entries := before ++ after } } e
    have hdrives (o : OutputId) : s.offDrives o e = (s.stations[n].config.output == o) := by
      rw [State.offDrives, hk]
    have hcount (o : OutputId) : s.holders o
        = State.holders { s with list := { s.list with entries := before ++ after } } o
          + if s.stations[n].config.output == o then 1 else 0 := by
      have hsplit : s.list.entries.countP (s.offDrives o)
          = (before ++ after).countP (s.offDrives o) + if s.stations[n].config.output == o then 1 else 0 := by
        rw [hentries, List.countP_append, List.countP_cons, List.countP_append, hdrives]
        omega
      rw [State.holders, hsplit]
      exact Nat.add_right_comm ..
    refine ⟨hoff n r hk, ?_, fun o ho => ?_⟩
    · rw [hcount, if_pos (beq_self_eq_true _)]
    · rw [hcount, if_neg (by simpa using ho.symm)]
      rfl
  · dsimp only
    rw [exec_timePulseEnd_quiet hquiet]
    refine ⟨fun hnone => ?_, fun p hp => ⟨fun hne => ⟨?_, holders_stopped hp⟩, fun heq => ?_⟩⟩
    · rw [hnone]
      exact congrArg Host.Outcome.next ((congrArg (s.withPulse n) hnone.symm).trans (withPulse_self s n))
    · rw [hp, Option.bind_some, TimePulse.atEnd, if_neg hne]
      rfl
    · rw [hp, Option.bind_some, TimePulse.atEnd, if_pos heq]
      rfl
  · have hnodup := hs.distinct
    refine ⟨?_, ?_⟩
    · rw [fireOn_time fire hnodup hi hmode hc hm]
      refine ⟨_, exec_timePulseEnd_quiet (by exact hquiet) n, ?_⟩
      have hload : ((s.loadPulse n).fireMarked n i).stations[n].pulse
          = some { left := s.stations[n].config.pulseWord, reloaded := some s.position.tracking } := by
        refine (loadPulse_pulse s n).trans ?_
        rw [hp]
        rfl
      rw [withPulse_pulse, hload, Option.bind_some, TimePulse.atEnd, if_pos (by exact rfl)]
      rfl
    · refine ⟨_, exec_timePulseEnd_quiet hquiet n, ?_⟩
      generalize s.stations[n].pulse.bind (TimePulse.atEnd s.position.tracking) = q
      have hconfig : (s.withPulse n q).stations[n].config = s.stations[n].config :=
        (congrArg Station.config (upd_get_same s.stations n fun st => { st with pulse := q }) :)
      rw [fireOn_time (s := s.withPulse n q) (n := n) fire (by exact hnodup) hi (by rw [hconfig]; exact hmode) (by rw [hconfig]; exact hc)
        (by rw [hconfig]; exact hm)]
      refine (congrArg (Option.map TimePulse.left) (loadPulse_pulse (s.withPulse n q) n)).trans ?_
      rw [hconfig]
      rfl

/-! ### The tick (R102, R103, R128, R178) -/

theorem mapAll_congr {α : Type} {k : Nat} {v : Vector α k} {f g : α → α} (h : ∀ i : Fin k, f v[i] = g v[i]) :
    mapAll f v = mapAll g v :=
  Vector.ext fun i hi => by
    rw [mapAll_get_val, mapAll_get_val]
    exact h ⟨i, hi⟩

theorem mapAll_self {α : Type} {k : Nat} {v : Vector α k} {f : α → α} (h : ∀ i : Fin k, f v[i] = v[i]) :
    mapAll f v = v :=
  Vector.ext fun i hi => by
    rw [mapAll_get_val]
    exact h ⟨i, hi⟩

theorem mapAll_mapAll {α : Type} {k : Nat} (v : Vector α k) (f g : α → α) :
    mapAll g (mapAll f v) = mapAll (fun x => g (f x)) v :=
  Vector.ext fun i hi => by simp only [mapAll_get_val]

/-- A map that keeps what an update does goes before it. -/
theorem mapAll_upd {α : Type} {k : Nat} {v : Vector α k} {i : Fin k} {f g : α → α} (h : g (f v[i]) = f (g v[i])) :
    mapAll g (upd v i f) = upd (mapAll g v) i f :=
  Vector.ext fun j hj => by
    have hget := mapAll_get g (upd v i f) ⟨j, hj⟩
    have hget' := upd_get (mapAll g v) i ⟨j, hj⟩ f
    refine hget.trans (Eq.trans ?_ hget'.symm)
    rw [upd_get, mapAll_get]
    split
    · exact h
    · exact (mapAll_get g v ⟨j, hj⟩).symm

/-- Two vectors that differ in one element alone, which an update makes the same. -/
theorem upd_of_agree {α : Type} {k : Nat} {v w : Vector α k} {i : Fin k} {f : α → α} (hi : f v[i] = f w[i])
    (h : ∀ j : Fin k, j ≠ i → v[j] = w[j]) : upd v i f = upd w i f :=
  Vector.ext fun j hj => by
    refine (upd_get v i ⟨j, hj⟩ f).trans (Eq.trans ?_ (upd_get w i ⟨j, hj⟩ f).symm)
    split
    · exact hi
    next hne => exact h _ hne

/-- A time pulse without time left ends. -/
def Station.endSpent (st : Station) : Station := { st with pulse := st.pulse.filter fun p => p.left != 0 }

/-- The time pulses without time left end. -/
def State.pulsesEnded (s : State) : State := { s with stations := mapAll Station.endSpent s.stations }

theorem foldl_endPulse_get (ns : List StationId) (s : State) (m : StationId) :
    (ns.foldl State.endPulse s).stations[m]
      = if m ∈ ns then { s.stations[m] with pulse := none } else s.stations[m] := by
  induction ns generalizing s with
  | nil => rfl
  | cons n ns ih =>
    have hget : (s.endPulse n).stations[m] = if m = n then { s.stations[n] with pulse := none } else s.stations[m] :=
      upd_get ..
    rw [List.foldl_cons, ih, hget]
    by_cases hm : m = n
    · subst hm
      simp
    · simp [hm]

theorem foldl_endPulse_rest (ns : List StationId) (s : State) :
    ns.foldl State.endPulse s = { s with stations := (ns.foldl State.endPulse s).stations } :=
  foldl_induction (P := fun t => t = { s with stations := t.stations }) (act := State.endPulse)
    (fun t n ht => by rw [ht]; rfl) ns rfl

theorem endDuePulses_quiet {s : State} (h : s.control.requests = []) : s.endDuePulses = s.pulsesEnded := by
  have hstations : ((stationIds.filter s.pulseDue).foldl State.endPulse s).stations = mapAll Station.endSpent s.stations :=
    Vector.ext fun j hj => by
      refine (foldl_endPulse_get _ s ⟨j, hj⟩).trans (Eq.trans ?_ (mapAll_get _ _ ⟨j, hj⟩).symm)
      simp only [List.mem_filter, stationIds_mem, true_and, State.pulseDue, Station.endSpent]
      generalize s.stations[(⟨j, hj⟩ : StationId)] = st
      obtain ⟨c, r, p, m, st, w⟩ := st
      cases p with
      | none => simp
      | some p => by_cases hp : p.left = 0#16 <;> simp [Option.filter, hp]
  unfold State.endDuePulses
  rw [h]
  dsimp only
  rw [foldl_endPulse_rest, hstations]
  rfl

/-- With a request on its way and no time pulse at its end, nothing more happens. -/
theorem endDuePulses_none {s : State} (h : ∀ n : StationId, s.pulseDue n = false) : s.endDuePulses = s := by
  unfold State.endDuePulses
  rw [List.filter_eq_nil_iff.2 fun n _ => by simp [h n]]
  split
  · rfl
  · exact runTasks_nil ..

/-- A station at a tick (R102, R103, R128). -/
def Station.tickDown (st : Station) : Station :=
  { st with
    pulse := st.pulse.bind (fun p => if p.left.toNat ≤ 1 then none else some { left := p.left - 1, reloaded := none })
    watches := st.watches.map (fun w => { w with timeLeft := w.timeLeft - 1 }) }

theorem oneLess_of_pos {t : Word} (h : ¬ t.toNat ≤ 1) : oneLess t = t - 1 ∧ oneLess t ≠ 0 := by
  have hne : oneLess t ≠ 0 := fun h0 => h (oneLess_eq_zero.1 h0)
  refine ⟨if_neg fun h0 => h ?_, hne⟩
  rw [h0]
  decide

theorem endSpent_countDown (st : Station) :
    st.countDown.endSpent = { st.tickDown with watches := st.countDown.watches } := by
  have hpulse : (st.pulse.map fun p => ({ left := oneLess p.left, reloaded := none } : TimePulse)).filter
      (fun p => p.left != 0) = st.tickDown.pulse := by
    unfold Station.tickDown
    cases st.pulse with
    | none => rfl
    | some p =>
      by_cases hp : p.left.toNat ≤ 1
      · have h0 := oneLess_eq_zero.2 hp
        simp [Option.filter, h0, hp]
      · obtain ⟨hval, h0⟩ := oneLess_of_pos hp
        have h0' : p.left - 1#16 ≠ 0#16 := hval ▸ h0
        simp [Option.filter, hval, hp, h0']
  exact congrArg (fun p => { st.tickDown with pulse := p, watches := st.countDown.watches }) hpulse

theorem tickDown_watches {st : Station} (h : ∀ w ∈ st.watches, 2 ≤ w.timeLeft.toNat) :
    st.countDown.watches = st.tickDown.watches :=
  List.map_congr_left fun w hw => by
    obtain ⟨hval, -⟩ := oneLess_of_pos (t := w.timeLeft) (by have := h w hw; omega)
    rw [hval]

theorem pulsesEnded_countedDown (s : State) :
    s.countedDown.pulsesEnded.stations
      = mapAll (fun st => { st.tickDown with watches := st.countDown.watches }) s.stations :=
  (mapAll_mapAll ..).trans (mapAll_congr fun _ => endSpent_countDown _)

theorem ticked_of_watches {s : State} (h : ∀ n : StationId, ∀ w ∈ s.stations[n].watches, 2 ≤ w.timeLeft.toNat) :
    (s.atPhase 0).countedDown.pulsesEnded = s.ticked := by
  have hstations : (s.atPhase 0).countedDown.pulsesEnded.stations = s.ticked.stations :=
    (pulsesEnded_countedDown _).trans (mapAll_congr fun n => by
      rw [show (s.atPhase 0).stations = s.stations from rfl, tickDown_watches (h n)]
      rfl)
  exact congrArg (fun v => { s.ticked with stations := v }) hstations

theorem watchDue_none {s : State} {n : StationId} (h : ∀ w ∈ s.stations[n].watches, 2 ≤ w.timeLeft.toNat) :
    s.countedDown.watchDue n = false := by
  by_contra hdue
  obtain ⟨w, hw, hle⟩ := watchDue_countedDown (by simpa using hdue)
  exact absurd (h w hw) (by omega)

/-- The last period of a tick. -/
theorem step_tick {s : State} (hp : s.pending = []) (h : s.Quiet)
    (hlast : s.globals.tickDiv.toNat ≤ s.globals.tickPhase.toNat + 1) :
    step s = .next (s.atPhase 0).tick.arriveHalts := by
  obtain ⟨hrun, hrequests⟩ := h
  rw [step_nil hp, State.clockPeriod, if_pos hrun, arriveHalts_none hrequests, State.clock, if_pos hlast]
  rfl

/-! ### A watch that runs out at a tick (R129) -/

theorem expireDue_of_not_due {s : State} {n : StationId} (h : s.watchDue n = false) (fuel : Nat) :
    State.expireDue fuel n s = s := by
  cases fuel with
  | zero => rfl
  | succ k => rw [State.expireDue, if_neg (by simp [h])]

theorem stationIds_filter_eq : ∀ n : StationId, stationIds.filter (· == n) = [n] := by decide

/-- One station has a watch due, at the head of its queue alone. -/
theorem watchesExpired_one {s : State} {n : StationId} (hdue : s.countedDown.watchDue n = true)
    (hothers : ∀ m : StationId, m ≠ n → s.countedDown.watchDue m = false)
    (hnext : (s.countedDown.missHead n 0).watchDue n = false) :
    s.watchesExpired = s.countedDown.missHead n 0 := by
  have hfilter : stationIds.filter s.countedDown.watchDue = [n] := by
    have hpred : stationIds.filter s.countedDown.watchDue = stationIds.filter (· == n) :=
      List.filter_congr fun m _ => by
        by_cases hm : m = n
        · rw [hm, hdue, beq_self_eq_true]
        · rw [hothers m hm, beq_eq_false_iff_ne.2 hm]
    exact hpred.trans (stationIds_filter_eq n)
  have hlength : ∃ k, s.countedDown.stations[n].watches.length = k + 1 := by
    unfold State.watchDue at hdue
    split at hdue
    · cases hdue
    next w rest hw => exact ⟨rest.length, by rw [hw]; rfl⟩
  obtain ⟨k, hk⟩ := hlength
  unfold State.watchesExpired
  rw [hfilter, List.length_singleton, inFreeOrder_one, hk, State.expireDue, if_pos hdue, expireDue_of_not_due hnext]

theorem arrive_pulsesEnded (s : State) (r : EventRecord) : (s.arrive r).pulsesEnded = s.pulsesEnded.arrive r := by
  rw [arrive_eq, arrive_eq]
  rfl

theorem endSpent_get (s : State) (n : StationId) : s.pulsesEnded.stations[n] = s.stations[n].endSpent := mapAll_get ..

theorem countDown_get (s : State) (n : StationId) : s.countedDown.stations[n] = s.stations[n].countDown := mapAll_get ..

theorem missTaken_pulsesEnded (s : State) (n : StationId) (w : Watch) (left : List Watch) (r : Runtime) (aux : Word) :
    (s.missTaken n w left r aux).pulsesEnded = s.pulsesEnded.missTaken n w left r aux := by
  have hmisses : s.pulsesEnded.nextMisses n = s.nextMisses n := by
    rw [State.nextMisses, endSpent_get]
    rfl
  have hstations : mapAll Station.endSpent (upd s.stations n fun st =>
      { st with runtime := r, watches := left, misses := s.nextMisses n })
      = upd s.pulsesEnded.stations n fun st =>
          { st with runtime := r, watches := left, misses := s.pulsesEnded.nextMisses n } := by
    rw [hmisses]
    exact mapAll_upd rfl
  rw [State.missTaken, arrive_pulsesEnded, State.missTaken, State.pulsesEnded]
  dsimp only
  rw [hstations]
  rfl

theorem missFails_pulsesEnded (s : State) (n : StationId) (w : Watch) (aux : Word) :
    (s.missFails n w aux).pulsesEnded = s.pulsesEnded.missFails n w aux := by
  rw [State.missFails, arrive_pulsesEnded, State.missFails, ← missTaken_pulsesEnded]
  rfl

/-- The miss of a watch at a tick: counted down and with its pulses ended, the state is the ticked one but for the
watches of the station. -/
theorem missTaken_ticked {s : State} {n : StationId} (w : Watch) (left : List Watch) (r : Runtime)
    (hothers : ∀ m : StationId, m ≠ n → ∀ x ∈ s.stations[m].watches, 2 ≤ x.timeLeft.toNat) :
    (s.atPhase 0).countedDown.pulsesEnded.missTaken n w left r 0 = s.ticked.missTaken n w left r 0 := by
  have hget (m : StationId) : (s.atPhase 0).countedDown.pulsesEnded.stations[m]
      = { s.stations[m].tickDown with watches := s.stations[m].countDown.watches } := by
    rw [pulsesEnded_countedDown]
    exact mapAll_get ..
  have hticked (m : StationId) : s.ticked.stations[m] = s.stations[m].tickDown := mapAll_get ..
  have hmisses : (s.atPhase 0).countedDown.pulsesEnded.nextMisses n = s.ticked.nextMisses n := by
    rw [State.nextMisses, State.nextMisses, hget, hticked]
  have hstations : (upd (s.atPhase 0).countedDown.pulsesEnded.stations n fun st =>
      { st with runtime := r, watches := left, misses := s.ticked.nextMisses n })
      = upd s.ticked.stations n fun st => { st with runtime := r, watches := left, misses := s.ticked.nextMisses n } :=
    upd_of_agree (by rw [hget, hticked]) fun m hm => by rw [hget, hticked, tickDown_watches (hothers m hm)]
  rw [State.missTaken, State.missTaken, hmisses, hstations]
  rfl

theorem lastMiss_countedDown (s : State) (n : StationId) : (s.atPhase 0).countedDown.AtLastMiss n ↔ s.AtLastMiss n := by
  rw [State.AtLastMiss, State.AtLastMiss, State.nextMisses, State.nextMisses, countDown_get]
  exact Iff.rfl

theorem missFails_ticked {s : State} {n : StationId} (w : Watch)
    (hothers : ∀ m : StationId, m ≠ n → ∀ x ∈ s.stations[m].watches, 2 ≤ x.timeLeft.toNat) :
    (s.atPhase 0).countedDown.pulsesEnded.missFails n w 0 = s.ticked.missFails n w 0 := by
  rw [State.missFails, missTaken_ticked w [] .failed hothers]
  rfl

theorem watchDue_of_watches {s : State} {n : StationId} {ws : List Watch} (h : s.stations[n].watches = ws)
    (hws : ∀ w ∈ ws, w.timeLeft ≠ 0) : s.watchDue n = false := by
  subst h
  unfold State.watchDue
  split
  · rfl
  next w rest hw => exact beq_eq_false_iff_ne.2 (hws w (by rw [hw]; exact List.mem_cons_self))

/-- Within a tick only the phase moves. -/
theorem step_phase {s : State} (hp : s.pending = []) (h : s.Quiet)
    (hwithin : s.globals.tickPhase.toNat + 1 < s.globals.tickDiv.toNat) :
    step s = .next { s with globals := { s.globals with tickPhase := s.globals.tickPhase + 1 } } := by
  obtain ⟨hrun, hrequests⟩ := h
  rw [step_nil hp, State.clockPeriod, if_pos hrun, arriveHalts_none hrequests, State.clock, if_neg (by omega)]
  exact congrArg Host.Outcome.next (arriveHalts_none hrequests)

/-- The watch at the head of a station's queue that alone runs out at a tick. -/
structure State.RunsOut (s : State) (n : StationId) (w : Watch) (rest : List Watch) : Prop where
  watches : s.stations[n].watches = w :: rest
  head : w.timeLeft.toNat ≤ 1
  rest : ∀ x ∈ rest, 2 ≤ x.timeLeft.toNat
  others : ∀ m : StationId, m ≠ n → ∀ x ∈ s.stations[m].watches, 2 ≤ x.timeLeft.toNat

theorem missFails_station (s : State) (n : StationId) (w : Watch) (aux : Word) (m : StationId) :
    (s.missFails n w aux).stations[m] = (s.missTaken n w [] .failed aux).stations[m] := by
  rw [State.missFails, arrive_eq]

theorem missFails_watches (s : State) (n : StationId) (w : Watch) (aux : Word) :
    (s.missFails n w aux).stations[n].watches = [] := by
  rw [missFails_station, missTaken_station]

theorem State.RunsOut.expired {s : State} {n : StationId} {w : Watch} {rest : List Watch} (h : s.RunsOut n w rest)
    (hnodup : (s.queue.items.map Item.tag).Nodup) :
    let u := (s.atPhase 0).countedDown
    let left := rest.map (fun x => { x with timeLeft := x.timeLeft - 1 })
    (¬ s.AtLastMiss n → (s.atPhase 0).watchesExpired = u.missTaken n w left s.stations[n].runtime 0)
    ∧ (s.AtLastMiss n → (s.atPhase 0).watchesExpired
        = if s.globals.haltOnFail then (u.missFails n w 0).requestHalt .stationFail else u.missFails n w 0) := by
  dsimp only
  obtain ⟨hw, hhead, hrest, hothers⟩ := h
  have hget := countDown_get (s.atPhase 0) n
  have hleft : rest.map (fun x => { x with timeLeft := oneLess x.timeLeft })
      = rest.map (fun x => { x with timeLeft := x.timeLeft - 1 }) :=
    List.map_congr_left fun x hx => by
      obtain ⟨hval, -⟩ := oneLess_of_pos (t := x.timeLeft) (by have := hrest x hx; omega)
      rw [hval]
  have hleft0 : ∀ x ∈ rest.map (fun x => { x with timeLeft := x.timeLeft - 1 : Watch }), x.timeLeft ≠ 0 := by
    intro x hx
    obtain ⟨y, hy, rfl⟩ := List.mem_map.1 hx
    obtain ⟨hval, hne⟩ := oneLess_of_pos (t := y.timeLeft) (by have := hrest y hy; omega)
    exact hval ▸ hne
  have hwatches : (s.atPhase 0).countedDown.stations[n].watches
      = { w with timeLeft := oneLess w.timeLeft } :: rest.map (fun x => { x with timeLeft := x.timeLeft - 1 }) := by
    rw [hget, ← hleft]
    exact congrArg (List.map fun x : Watch => { x with timeLeft := oneLess x.timeLeft }) hw
  have hdue : (s.atPhase 0).countedDown.watchDue n = true := by
    rw [State.watchDue, hwatches]
    exact beq_iff_eq.2 (oneLess_eq_zero.2 hhead)
  have hquiet (m : StationId) (hm : m ≠ n) : (s.atPhase 0).countedDown.watchDue m = false := watchDue_none (hothers m hm)
  have hruntime : (s.atPhase 0).countedDown.stations[n].runtime = s.stations[n].runtime := by
    rw [hget]
    rfl
  refine ⟨fun hmiss => ?_, fun hmiss => ?_⟩
  · have hhead := missHead_taken (by exact hnodup) hwatches (fun h => hmiss ((lastMiss_countedDown ..).1 h)) 0
    rw [hruntime] at hhead
    rw [watchesExpired_one hdue hquiet, hhead]
    · rfl
    · rw [hhead]
      exact watchDue_of_watches (congrArg Station.watches (missTaken_station ..)) hleft0
  · have hhead := missHead_fails (by exact hnodup) hwatches ((lastMiss_countedDown ..).2 hmiss) 0
    rw [watchesExpired_one hdue hquiet, hhead]
    · rfl
    · rw [hhead]
      refine watchDue_of_watches (ws := []) ?_ (by simp)
      split
      · exact missFails_watches ..
      · exact missFails_watches ..

theorem pulses_not_spent {s : State} (h : ∀ m : StationId, ∀ p, s.stations[m].pulse = some p → 2 ≤ p.left.toNat)
    (m : StationId) : s.countedDown.pulseDue m = false := by
  rw [State.pulseDue, countDown_get]
  unfold Station.countDown
  dsimp only
  cases hp : s.stations[m].pulse with
  | none => rfl
  | some p =>
    obtain ⟨-, hne⟩ := oneLess_of_pos (t := p.left) (by have := h m p hp; omega)
    exact beq_eq_false_iff_ne.2 hne

theorem pulsesEnded_of_not_due {s : State} (h : ∀ m : StationId, s.pulseDue m = false) : s.pulsesEnded = s := by
  have hstations : s.pulsesEnded.stations = s.stations := mapAll_self fun m => by
    have hm := h m
    rw [State.pulseDue] at hm
    rw [Station.endSpent]
    generalize s.stations[m] = st at hm
    obtain ⟨c, r, p, m, st, w⟩ := st
    cases p with
    | none => rfl
    | some p =>
      have hp : (p.left != 0) = true := bne_iff_ne.2 (beq_eq_false_iff_ne.1 hm)
      exact congrArg (fun q => ({ config := c, runtime := r, pulse := q, misses := m, strays := st, watches := w } : Station))
        (Option.filter_some.trans (if_pos hp))
  exact congrArg (fun v => { s with stations := v }) hstations

theorem missFails_pulseDue (s : State) (n : StationId) (w : Watch) (aux : Word) (m : StationId) :
    (s.missFails n w aux).pulseDue m = s.pulseDue m := by
  have hpulse : (s.missFails n w aux).stations[m].pulse = s.stations[m].pulse := by
    rw [missFails_station, State.missTaken, arrive_eq]
    exact upd_get_proj (v := s.stations) n m Station.pulse rfl
  rw [State.pulseDue, State.pulseDue, hpulse]

theorem missFails_pending (s : State) (n : StationId) (w : Watch) (aux : Word) :
    (s.missFails n w aux).pending = s.pending := by
  rw [State.missFails, arrive_eq, State.missTaken, arrive_eq]

/-- Settles O2: within a tick the phase moves, and at the last period the running times are counted down. -/
theorem idleStepIsAClockPeriod : Obligations.IdleStepIsAClockPeriod := by
  unfold Obligations.IdleStepIsAClockPeriod
  refine ⟨fun s hp => ⟨fun hrun => ?_, step_phase hp⟩, fun s hp hquiet hlast => ⟨fun hwatches => ?_, ?_⟩⟩
  · rw [step_nil hp, State.clockPeriod, if_neg (by simp [hrun])]
  · have hnone : (s.atPhase 0).watchesExpired = (s.atPhase 0).countedDown := by
      unfold State.watchesExpired
      rw [List.filter_eq_nil_iff.2 fun n _ => by rw [watchDue_none (s := s.atPhase 0) (hwatches n)]; decide]
      rfl
    obtain ⟨-, hrequests⟩ := id hquiet
    rw [step_tick hp hquiet hlast, tick_eq, hnone, endDuePulses_quiet (by exact hrequests), ticked_of_watches hwatches]
    exact congrArg Host.Outcome.next (arriveHalts_none hrequests)
  · intro n w rest hs hw hhead hrest hothers
    have hout : s.RunsOut n w rest := ⟨hw, hhead, hrest, hothers⟩
    obtain ⟨htaken, hfails⟩ := hout.expired hs.distinct
    obtain ⟨-, hrequests⟩ := id hquiet
    rw [step_tick hp hquiet hlast, tick_eq]
    refine ⟨fun hmiss => ?_, fun hmiss hoff => ?_, fun hmiss hon hpulses => ?_⟩
    · have hr : ((s.atPhase 0).countedDown.missTaken n w (rest.map fun x => { x with timeLeft := x.timeLeft - 1 })
          s.stations[n].runtime 0).control.requests = [] := (congrArg Control.requests (missTaken_control ..)).trans hrequests
      rw [htaken hmiss, endDuePulses_quiet hr, missTaken_pulsesEnded, missTaken_ticked _ _ _ hothers]
      exact congrArg Host.Outcome.next (arriveHalts_none ((congrArg Control.requests (missTaken_control ..)).trans hrequests))
    · have hr : ((s.atPhase 0).countedDown.missFails n w 0).control.requests = [] :=
        (congrArg Control.requests (missFails_control ..)).trans hrequests
      rw [hfails hmiss, hoff, if_neg (by decide), endDuePulses_quiet hr, missFails_pulsesEnded, missFails_ticked _ hothers]
      exact congrArg Host.Outcome.next (arriveHalts_none ((congrArg Control.requests (missFails_control ..)).trans hrequests))
    · have hspent := pulses_not_spent (s := s.atPhase 0) hpulses
      have hended : (s.atPhase 0).countedDown = (s.atPhase 0).countedDown.pulsesEnded :=
        (pulsesEnded_of_not_due hspent).symm
      have hdue (m : StationId) : State.pulseDue (((s.atPhase 0).countedDown.missFails n w 0).requestHalt .stationFail) m
          = false := (missFails_pulseDue ..).trans (hspent m)
      have hr : (s.ticked.missFails n w 0).control.requests = [] :=
        (congrArg Control.requests (missFails_control ..)).trans hrequests
      rw [hfails hmiss, hon, if_pos rfl, endDuePulses_none hdue, hended, missFails_ticked _ hothers]
      exact (raised_arrives hr).1 ((missFails_pending ..).trans hp)

end Sys2Proof.Machine
end

section
/-! PROOFS. The lane detectors (Chapter 2): findings, and edges accepted. -/

namespace Sys2Proof.Machine

/-! ### One live item's record -/

/-- Item `i` is live, and no other live item has its tag. -/
def State.Live (s : State) (i : Item) : Prop := (s.queue.items.map Item.tag).Nodup ∧ i ∈ s.queue.items

/-- The record of an item replaced. -/
def State.setItem (s : State) (tag : Tag) (r : Item) : State := s.updItem tag fun _ => r

theorem State.Live.find {s : State} {i : Item} (h : s.Live i) : s.findItem i.tag = some i :=
  findItem_of_mem h.1 h.2

theorem State.Live.updItem {s : State} {i : Item} (h : s.Live i) (f : Item → Item) :
    s.updItem i.tag f = s.setItem i.tag (f i) := by
  obtain ⟨hnodup, hi⟩ := h
  exact updItem_of_mem hnodup hi f

theorem State.Live.setItem {s : State} {i r : Item} (h : s.Live i) (hr : r.tag = i.tag) : (s.setItem i.tag r).Live r := by
  obtain ⟨hnodup, hi⟩ := h
  refine ⟨?_, List.mem_map.2 ⟨i, hi, if_pos rfl⟩⟩
  have htags : (s.queue.items.map fun x => if x.tag = i.tag then r else x).map Item.tag = s.queue.items.map Item.tag := by
    refine (List.map_map ..).trans (List.map_congr_left fun x _ => ?_)
    rw [Function.comp_apply]
    split
    next hx => rw [hr, hx]
    next => rfl
  exact htags ▸ hnodup

theorem setItem_setItem (s : State) {tag : Tag} {r : Item} (hr : r.tag = tag) (r' : Item) :
    (s.setItem tag r).setItem tag r' = s.setItem tag r' := by
  have hmap : (s.queue.items.map fun x => if x.tag = tag then r else x).map (fun x => if x.tag = tag then r' else x)
      = s.queue.items.map fun x => if x.tag = tag then r' else x := by
    refine (List.map_map ..).trans (List.map_congr_left fun x _ => ?_)
    rw [Function.comp_apply]
    by_cases hx : x.tag = tag
    · rw [if_pos hx, if_pos hr, if_pos hx]
    · rw [if_neg hx, if_neg hx]
  exact congrArg (fun items => { s with queue := { s.queue with items := items } }) hmap

theorem State.Live.arrive {s : State} {i : Item} (h : s.Live i) (r : EventRecord) : (s.arrive r).Live i := by
  rw [State.Live, arrive_items]
  exact h

/-! ### Findings (R28, R29) -/

/-- A finding on the item forces its verdict (R29). -/
def State.forces (s : State) (l : LaneId) (i : Item) : Bool := s.lanes[l].config.sizePolicy == .reject && !i.final

/-- The record with its verdict forced (R52). -/
def Item.forcedIf (forced : Bool) (reason : BitVec 8) (i : Item) : Item :=
  if forced then { i with verdict := .reject, source := .forced, reason := reason } else i

/-- The lane with a forced reject counted. -/
def Lane.forcing (forced : Bool) (x : Lane) : Lane :=
  { x with counters := { x.counters with forcedRejects := x.counters.forcedRejects + (if forced then 1 else 0) } }

theorem Lane.forcing_false : Lane.forcing false = id := by
  funext x
  simp [Lane.forcing]

theorem setItem_self {s : State} {i : Item} (h : s.Live i) : s.setItem i.tag i = s :=
  (h.updItem id).symm.trans (congrArg (fun items => { s with queue := { s.queue with items := items } })
    ((List.map_congr_left (g := id) fun _ _ => ite_self _).trans (List.map_id _)))

theorem applySizePolicy_live {s : State} {i : Item} (h : s.Live i) (l : LaneId) (reason : BitVec 8) :
    s.applySizePolicy l i.tag reason
      = (s.setItem i.tag (i.forcedIf (s.forces l i) reason)).updLane l (Lane.forcing (s.forces l i)) := by
  have hstays (hf : s.forces l i = false) :
      s = (s.setItem i.tag (i.forcedIf (s.forces l i) reason)).updLane l (Lane.forcing (s.forces l i)) := by
    rw [hf, Lane.forcing_false, Item.forcedIf, if_neg (by decide), setItem_self h, updLane_eq_self rfl]
  unfold State.applySizePolicy
  rw [h.find]
  cases hp : s.lanes[l].config.sizePolicy with
  | flag => exact hstays (by rw [State.forces, hp]; rfl)
  | reject =>
    dsimp only
    cases hfinal : i.final with
    | true => exact hstays (by rw [State.forces, hfinal, Bool.not_true, Bool.and_false])
    | false =>
      have hf : s.forces l i = true := by rw [State.forces, hp, hfinal]; rfl
      rw [if_neg (by decide), hf, h.updItem, Item.force, if_neg (by rw [hfinal]; decide)]
      rfl

/-- The record with the LONG flag, and its verdict forced or not. -/
def Item.foundLong (forced : Bool) (i : Item) : Item := { i with long := true }.forcedIf forced 0xF1

theorem longFound_eq (s : State) (l : LaneId) (i : Item) :
    s.longFound l i = State.arrive
      ((s.setItem i.tag (i.foundLong (s.forces l i))).updLane l (Lane.forcing (s.forces l i)))
      (s.recordNow .itemJam (laneUnit l) i.tag 0 0) := by
  rfl

/-- A LONG finding on a live item. -/
theorem findLong_live {s : State} {i : Item} (h : s.Live i) (l : LaneId) : s.findLong l i.tag = s.longFound l i := by
  have hlive : ((s.setItem i.tag { i with long := true }).report .itemJam (laneUnit l) i.tag 0 0).Live
      { i with long := true } := (h.setItem (r := { i with long := true }) rfl).arrive _
  have hforces : ((s.setItem i.tag { i with long := true }).report .itemJam (laneUnit l) i.tag 0 0).forces l
      { i with long := true } = s.forces l i := by
    rw [State.forces, report_lanes]
    rfl
  have hpolicy := applySizePolicy_live hlive l 0xF1
  rw [hforces] at hpolicy
  rw [State.findLong, h.updItem]
  refine hpolicy.trans ?_
  rw [longFound_eq, report_eq, State.setItem, arrive_updItem, arrive_updLane]
  refine congrArg (fun t => State.arrive (State.updLane t l _) _) ?_
  exact setItem_setItem s rfl _

theorem longReady_iff (s : State) (l : LaneId) (i : Item) :
    s.longReady l i = true ↔ s.inputActive l = true ∧ s.LongHolds l i := by
  simp only [State.longReady, State.LongHolds, Bool.and_eq_true, bne_iff_ne, Bool.not_eq_true', hasReached_iff, AtOrBehind,
    wide, ne_eq]
  tauto

theorem setDetector_inputActive (s : State) (l m : LaneId) (d : Detector) :
    (s.setDetector l d).inputActive m = s.inputActive m := by
  have hconfig : (s.setDetector l d).lanes[m].config = s.lanes[m].config :=
    upd_get_proj (v := s.lanes) (f := fun x => { x with detector := d }) l m Lane.config rfl
  rw [State.inputActive, hconfig]
  rfl

/-- The lane OCCUPIED with no trailing candidate, and the conditions of R28 not met. -/
theorem checkLong_none {s : State} {l : LaneId} {link : Option Tag} (h : s.lanes[l].detector = .occupied link none)
    (hnot : s.blanked = true ∨ s.inputActive l = false ∨ ∀ i ∈ s.queue.items, link = some i.tag → ¬ s.LongHolds l i) :
    s.checkLong l = s := by
  have hdue : s.longDue l = none := by
    unfold State.longDue
    rw [h]
    cases link with
    | none => rfl
    | some tag =>
      dsimp only
      split
      · rfl
      next hb =>
        cases hfind : s.findItem tag with
        | none => rfl
        | some i =>
          have htag : i.tag = tag := by simpa using List.find?_some hfind
          refine Option.filter_some.trans (if_neg fun hready => ?_)
          obtain ⟨hactive, hlong⟩ := (longReady_iff ..).1 hready
          obtain hb' | hinactive | hnone := hnot
          · exact hb hb'
          · rw [hactive] at hinactive
            cases hinactive
          · exact hnone i (List.mem_of_find?_eq_some hfind) (by rw [htag]) hlong
  rw [State.checkLong, hdue]

theorem longDue_found {s : State} {l : LaneId} {i : Item} (hlive : s.Live i)
    (h : s.lanes[l].detector = .occupied (some i.tag) none) (hb : s.blanked = false) (hactive : s.inputActive l = true)
    (hlong : s.LongHolds l i) : s.longDue l = some i := by
  unfold State.longDue
  rw [h]
  dsimp only
  rw [hb, if_neg (by decide), hlive.find]
  exact Option.filter_some.trans (if_pos ((longReady_iff ..).2 ⟨hactive, hlong⟩))

/-- The lane OCCUPIED with no trailing candidate, and the conditions of R28 met. -/
theorem checkLong_found {s : State} {l : LaneId} {i : Item} (hlive : s.Live i)
    (h : s.lanes[l].detector = .occupied (some i.tag) none) (hb : s.blanked = false) (hactive : s.inputActive l = true)
    (hlong : s.LongHolds l i) : s.checkLong l = s.longFound l i := by
  rw [State.checkLong, longDue_found hlive h hb hactive hlong]
  exact findLong_live hlive l

theorem setDetector_get (s : State) (l : LaneId) (d : Detector) :
    (s.setDetector l d).lanes[l] = { s.lanes[l] with detector := d } := upd_get_same ..

theorem longHolds_setDetector (s : State) (l : LaneId) (d : Detector) (i : Item) :
    (s.setDetector l d).LongHolds l i ↔ s.LongHolds l i := by
  rw [State.LongHolds, State.LongHolds, setDetector_get]
  exact Iff.rfl

/-! ### The change of an input, an advance, and a re-sampling (R19 to R21, R25, R31) -/

/-- A trailing candidate dropped, and the LONG finding made then (R25, R28). -/
theorem dropCandidate_none {s : State} {l : LaneId} {link : Option Tag}
    (hnot : ∀ i ∈ s.queue.items, link = some i.tag → ¬ s.LongHolds l i) :
    (s.setDetector l (.occupied link none)).checkLong l = s.setDetector l (.occupied link none) :=
  checkLong_none (congrArg Lane.detector (setDetector_get ..))
    (.inr (.inr fun i hi hl hlong => hnot i hi hl ((longHolds_setDetector ..).1 hlong)))

theorem dropCandidate_found {s : State} {l : LaneId} {i : Item} (hlive : s.Live i) (hb : s.blanked = false)
    (hactive : s.inputActive l = true) (hlong : s.LongHolds l i) :
    (s.setDetector l (.occupied (some i.tag) none)).checkLong l
      = (s.setDetector l (.occupied (some i.tag) none)).longFound l i :=
  checkLong_found (by exact hlive) (congrArg Lane.detector (setDetector_get ..)) hb
    ((setDetector_inputActive ..).trans hactive) ((longHolds_setDetector ..).2 hlong)

theorem longFound_requests (s : State) (l : LaneId) (i : Item) : (s.longFound l i).control = s.control := by
  rw [longFound_eq, arrive_eq]
  rfl

/-- The state in which a change at a DET pin is taken. -/
theorem inputActive_setDet (s : State) (l : LaneId) (level : Level) :
    (s.setDet l level).inputActive l = true ↔ level ≠ s.lanes[l].config.activeLow := by
  have hpin : (s.setDet l level).pins.det[l] = level := upd_get_same ..
  rw [State.inputActive, hpin]
  exact bne_iff_ne

section
variable {s : State} {l : LaneId} (hb : s.blanked = false)
include hb

theorem laneInput_off (hd : s.lanes[l].detector = .off) : s.laneInput l = s := by
  unfold State.laneInput
  dsimp only
  rw [hb, if_neg (by decide), hd]

theorem laneInput_waitClear (hd : s.lanes[l].detector = .waitClear) :
    s.laneInput l = if s.inputActive l then s else s.setDetector l .clear := by
  unfold State.laneInput
  dsimp only
  rw [hb, if_neg (by decide), hd]

theorem laneInput_clear (hd : s.lanes[l].detector = .clear) (hactive : s.inputActive l = true) :
    s.laneInput l = if s.lanes[l].config.filter = 0 then s.acceptLeading l s.position.tracking
      else s.setDetector l (.filtering s.position.tracking) := by
  unfold State.laneInput
  dsimp only
  rw [hb, if_neg (by decide), hd]
  exact if_pos hactive

theorem laneInput_filtering {capture : Pos} (hd : s.lanes[l].detector = .filtering capture) :
    s.laneInput l = if s.inputActive l then s else (s.countLane l .glitches).setDetector l .clear := by
  unfold State.laneInput
  dsimp only
  rw [hb, if_neg (by decide), hd]

theorem laneInput_occupied {link : Option Tag} {candidate : Option Pos}
    (hd : s.lanes[l].detector = .occupied link candidate) :
    s.laneInput l = if s.inputActive l then (s.setDetector l (.occupied link none)).checkLong l
      else if s.lanes[l].config.filter = 0 then s.acceptTrailing l link s.position.tracking
      else s.setDetector l (.occupied link (some s.position.tracking)) := by
  unfold State.laneInput
  dsimp only
  rw [hb, if_neg (by decide), hd]

theorem laneResample_waitClear (hd : s.lanes[l].detector = .waitClear) :
    s.laneResample l = if s.inputActive l then s else s.setDetector l .clear := by
  unfold State.laneResample
  dsimp only
  rw [hb, if_neg (by decide), hd]

theorem laneResample_clear (hd : s.lanes[l].detector = .clear) (hactive : s.inputActive l = true) :
    s.laneResample l = if s.lanes[l].config.filter = 0 then s.acceptLeading l s.position.tracking
      else s.setDetector l (.filtering s.position.tracking) := by
  unfold State.laneResample
  dsimp only
  rw [hb, if_neg (by decide), hd]
  exact if_pos hactive

theorem laneResample_filtering {capture : Pos} (hd : s.lanes[l].detector = .filtering capture) :
    s.laneResample l = if s.inputActive l then s.setDetector l (.filtering s.position.tracking)
      else (s.countLane l .glitches).setDetector l .clear := by
  unfold State.laneResample
  dsimp only
  rw [hb, if_neg (by decide), hd]

theorem laneResample_occupied {link : Option Tag} {candidate : Option Pos}
    (hd : s.lanes[l].detector = .occupied link candidate) :
    s.laneResample l = if s.inputActive l then (s.setDetector l (.occupied link none)).checkLong l
      else s.acceptTrailing l link s.position.tracking := by
  unfold State.laneResample
  dsimp only
  rw [hb, if_neg (by decide), hd]

end

theorem laneInput_blanked {s : State} (hb : s.blanked = true) (l : LaneId) : s.laneInput l = s := if_pos hb

/-- A change at a DET pin in a part that runs. -/
theorem exec_detInputChange_quiet {s : State} {l : LaneId} {level : Level} (h : s.Quiet) (hne : s.pins.det[l] ≠ level) :
    exec (.detInputChange l level) s = .next ((s.setDet l level).laneInput l).arriveHalts := by
  rw [exec_detInputChange, atPin_quiet _ _ h, if_neg hne]

theorem laneIds_filter_eq : ∀ l : LaneId, laneIds.filter (· == l) = [l] := by decide

/-- An advance that is one lane's work. -/
theorem exec_onlyLane {s : State} {l : LaneId} {a b : Level} (h : s.OnlyLane l a b)
    (hdue : (s.advanced a b).laneDue l = true) :
    exec (.encoderTransition a b) s = .next (State.arriveHalts
      { (s.advanced a b).laneAdvance l with
        list := { ((s.advanced a b).laneAdvance l).list with firingPoint := s.position.tracking + 1 } }) := by
  obtain ⟨hadvance, hothers, hentries⟩ := h
  have hlanes : laneIds.filter (s.advanced a b).laneDue = [l] :=
    (List.filter_congr fun m _ => by
      by_cases hm : m = l
      · rw [hm, hdue, beq_self_eq_true]
      · rw [hothers m hm, beq_eq_false_iff_ne.2 hm]).trans (laneIds_filter_eq l)
  have hlist : (s.advanced a b).list.entries.any (s.advanced a b).due = false :=
    List.any_eq_false.2 fun e he hdue => hentries e he (beq_iff_eq.1 hdue)
  have htasks : (s.advanced a b).advanceTasks = [.lane l] := by
    rw [State.advanceTasks, hlanes, hlist]
    rfl
  have hrequests : (s.advanced a b).control.requests = [] := hadvance.quiet.2
  have hself : (s.advanced a b).withRequests [] = s.advanced a b := hrequests ▸ withRequests_self _
  have hframe := (works_laneAdvance (s.advanced a b) l).frame
  rw [exec_advance hadvance (by decide), State.takeAdvance, htasks, taskFuel, runTasks_one 63 (.lane l) hrequests, hself]
  exact congrArg (fun t => Host.Outcome.next (State.arriveHalts t))
    (settleTracking_at (hframe.op.trans hadvance.state) (congrArg PositionUnit.tracking hframe.position))

theorem blanked_advanced {s : State} {a b : Level} (h : s.Advances .tracking a b) : (s.advanced a b).blanked = false := by
  refine blanked_of h.state (Eq.trans ?_ h.reverse)
  exact add_sub_add_right_eq_sub ..

theorem atOrBehind_iff {s : State} {p : Pos} : s.hasReached p = true ↔ AtOrBehind p s.position.tracking := hasReached_iff

theorem glitch_eq (s : State) (l : LaneId) :
    (s.countLane l .glitches).setDetector l .clear = { s with lanes := upd s.lanes l (fun x =>
      { x with detector := .clear, counters := { x.counters with glitches := x.counters.glitches + 1 } }) } :=
  updLane_updLane ..

section
variable {s : State} {l : LaneId} (hb : s.blanked = false)
include hb

theorem laneDue_filtering {capture : Pos} (hd : s.lanes[l].detector = .filtering capture) (hin : s.inputActive l = true)
    (hp : s.hasReached (capture + s.lanes[l].config.filter.zeroExtend 32) = true) : s.laneDue l = true := by
  unfold State.laneDue
  dsimp only
  rw [hb, hd]
  dsimp only
  rw [hin, hp]
  rfl

theorem laneDue_candidate {link : Option Tag} {candidate : Pos}
    (hd : s.lanes[l].detector = .occupied link (some candidate)) (hin : s.inputActive l = false)
    (hp : s.hasReached (candidate + s.lanes[l].config.filter.zeroExtend 32) = true) : s.laneDue l = true := by
  unfold State.laneDue
  dsimp only
  rw [hb, hd]
  dsimp only
  rw [hin, hp]
  rfl

theorem laneDue_long {i : Item} (hlive : s.Live i) (hd : s.lanes[l].detector = .occupied (some i.tag) none)
    (hin : s.inputActive l = true) (hlong : s.LongHolds l i) : s.laneDue l = true := by
  unfold State.laneDue
  dsimp only
  rw [hb, hd]
  dsimp only
  rw [longDue_found hlive hd hb hin hlong]
  rfl

end

section
variable {s : State} {l : LaneId} (hdue : s.laneDue l = true)
include hdue

theorem laneAdvance_filtering {capture : Pos} (hd : s.lanes[l].detector = .filtering capture) :
    s.laneAdvance l = s.acceptLeading l capture := by
  rw [State.laneAdvance, if_pos hdue, hd]

theorem laneAdvance_candidate {link : Option Tag} {candidate : Pos}
    (hd : s.lanes[l].detector = .occupied link (some candidate)) :
    s.laneAdvance l = s.acceptTrailing l link candidate := by
  rw [State.laneAdvance, if_pos hdue, hd]

theorem laneAdvance_long {link : Option Tag} (hd : s.lanes[l].detector = .occupied link none) :
    s.laneAdvance l = s.checkLong l := by
  rw [State.laneAdvance, if_pos hdue, hd]

end

/-- Settles O21, by the states of the detector. -/
theorem detectorFollowsItsInput : Obligations.DetectorFollowsItsInput := by
  unfold Obligations.DetectorFollowsItsInput
  refine ⟨fun s l level hquiet hne => ?_, fun s l a b hlane => ?_, fun s l hb => ?_⟩
  · dsimp only
    have hactive := inputActive_setDet s l level
    obtain ⟨-, hrequests⟩ := id hquiet
    have hdone {t : State} (ht : (s.setDet l level).laneInput l = t) (hr : t.control = s.control) :
        exec (.detInputChange l level) s = .next t := by
      rw [exec_detInputChange_quiet hquiet hne, ht, arriveHalts_none (by rw [hr]; exact hrequests)]
    have hblanked (hb : s.blanked = false) : (s.setDet l level).blanked = false := hb
    refine ⟨fun hoff => ?_, fun hb hd hin => ?_, fun hb hd hin hf => ?_, fun capture hb hd hin => ?_,
      fun link candidate hb hd hin hf => ?_, fun link candidate hb hd hin hnot => ?_,
      fun i candidate hb hs hi hd hin hlong => ?_⟩
    · refine hdone ?_ rfl
      cases hb : s.blanked with
      | true => exact laneInput_blanked (by exact hb) l
      | false => exact laneInput_off (hblanked hb) (hoff.resolve_left (by rw [hb]; decide))
    · exact hdone ((laneInput_waitClear (hblanked hb) hd).trans (if_neg fun h => hin (hactive.1 h))) rfl
    · exact hdone ((laneInput_clear (hblanked hb) hd (hactive.2 hin)).trans (if_neg hf)) rfl
    · exact hdone ((laneInput_filtering (hblanked hb) hd).trans
        ((if_neg fun h => hin (hactive.1 h)).trans (glitch_eq ..))) rfl
    · exact hdone ((laneInput_occupied (hblanked hb) hd).trans
        ((if_neg fun h => hin (hactive.1 h)).trans (if_neg hf))) rfl
    · exact hdone ((laneInput_occupied (hblanked hb) hd).trans
        ((if_pos (hactive.2 hin)).trans (dropCandidate_none (s := s.setDet l level) hnot))) rfl
    · exact hdone ((laneInput_occupied (hblanked hb) hd).trans ((if_pos (hactive.2 hin)).trans
        (dropCandidate_found (s := s.setDet l level) ⟨hs.distinct, hi⟩ (hblanked hb) (hactive.2 hin) hlong)))
        (longFound_requests ..)
  · dsimp only
    have hb := blanked_advanced hlane.advance
    have hreached {p : Pos} (hp : AtOrBehind p (s.position.tracking + 1)) : (s.advanced a b).hasReached p = true :=
      atOrBehind_iff.2 hp
    have htaken {t : State} (hdue : (s.advanced a b).laneDue l = true) (ht : (s.advanced a b).laneAdvance l = t) :=
      ht ▸ exec_onlyLane hlane hdue
    refine ⟨fun capture hd hin hp => ?_, fun link candidate hd hin hp => ?_, fun i hs hi hd hin hlong => ?_⟩
    · have hdue := laneDue_filtering hb hd hin (hreached hp)
      exact htaken hdue (laneAdvance_filtering hdue hd)
    · have hdue := laneDue_candidate hb hd hin (hreached hp)
      exact htaken hdue (laneAdvance_candidate hdue hd)
    · have hlive : (s.advanced a b).Live i := ⟨hs.distinct, hi⟩
      have hfound := checkLong_found hlive hd hb hin hlong
      have hdue := laneDue_long hb hlive hd hin hlong
      exact htaken hdue ((laneAdvance_long hdue hd).trans hfound)
  · dsimp only
    refine ⟨laneResample_settled, fun hd hin => ?_, fun hd hin => laneResample_clear hb hd hin,
      fun capture hd => ⟨fun hin => ?_, fun hin => ?_⟩,
      fun link candidate hd => ⟨fun hin => ?_, fun hin hnot => ?_, fun i hin hs hi hl hlong => ?_⟩⟩
    · rw [laneResample_waitClear hb hd, hin]
      rfl
    · rw [laneResample_filtering hb hd, hin]
      rfl
    · rw [laneResample_filtering hb hd, hin]
      exact glitch_eq ..
    · rw [laneResample_occupied hb hd, hin]
      rfl
    · rw [laneResample_occupied hb hd, if_pos hin]
      exact dropCandidate_none hnot
    · subst hl
      rw [laneResample_occupied hb hd, if_pos hin]
      exact dropCandidate_found ⟨hs.distinct, hi⟩ hb hin hlong

end Sys2Proof.Machine
end

section
/-! PROOFS. Edges accepted by a lane (sections 2.3 to 2.5, 3.3): trailing edges reported, leading edges enrolled or refused. -/

namespace Sys2Proof.Machine

/-! ### The trailing edge (R25, R26) -/

/-- An event that arrives or not. -/
def State.arriveIf (s : State) (b : Bool) (r : EventRecord) : State := if b then s.arrive r else s

theorem arriveIf_setItem (s : State) (b : Bool) (r : EventRecord) (tag : Tag) (i : Item) :
    (s.arriveIf b r).setItem tag i = (s.setItem tag i).arriveIf b r := by
  cases b
  · rfl
  · exact arrive_updItem ..

theorem arriveIf_updLane (s : State) (b : Bool) (r : EventRecord) (l : LaneId) (f : Lane → Lane) :
    (s.arriveIf b r).updLane l f = (s.updLane l f).arriveIf b r := by
  cases b
  · rfl
  · exact arrive_updLane ..

theorem arriveIf_shape (s : State) (b : Bool) (r : EventRecord) :
    ∃ records bits, s.arriveIf b r = { s with events := { s.events with records := records }
                                              host := { s.host with intStatus := bits } } := by
  cases b
  · exact ⟨_, _, rfl⟩
  · exact ⟨_, _, arrive_eq s r⟩

/-- The record once its trailing edge is stored (R53). -/
def Item.trailed (pos : Pos) (i : Item) : Item := { i with trailing := some pos, length := some (pos - i.leading) }

/-- The record after step 2 of R26. -/
def Item.judgedLong (long forced : Bool) (i : Item) : Item := if long then i.foundLong forced else i

/-- The record after step 3 of R26. -/
def Item.judgedShort (short forced : Bool) (i : Item) : Item :=
  if short then { i with short := true }.forcedIf forced 0xF0 else i

theorem Item.judgedLong_keeps (long forced : Bool) (i : Item) :
    (i.judgedLong long forced).tag = i.tag ∧ (i.judgedLong long forced).final = i.final := by
  unfold Item.judgedLong Item.foundLong Item.forcedIf
  split
  · split
    · exact ⟨rfl, rfl⟩
    · exact ⟨rfl, rfl⟩
  · exact ⟨rfl, rfl⟩

theorem longAtTrailing_eq {s : State} {i : Item} (h : s.Live i) (l : LaneId) (pos : Pos) :
    let length := pos - i.leading
    let long : Bool := s.lanes[l].config.maxLength != 0 && decide (s.lanes[l].config.maxLength.toNat ≤ length.toNat) && !i.long
    (s.storeTrailing i pos).longAtTrailing l i length
      = ((s.setItem i.tag ((i.trailed pos).judgedLong long (s.forces l i))).updLane l
          (Lane.forcing (s.forces l i && long))).arriveIf long (s.recordNow .itemJam (laneUnit l) i.tag 0 0) := by
  dsimp only
  have hstore : s.storeTrailing i pos = s.setItem i.tag (i.trailed pos) := h.updItem _
  have hlive : (s.setItem i.tag (i.trailed pos)).Live (i.trailed pos) := h.setItem rfl
  rw [hstore, State.longAtTrailing]
  generalize hlong : (s.lanes[l].config.maxLength != 0 && decide (s.lanes[l].config.maxLength.toNat ≤ (pos - i.leading).toNat)
    && !i.long) = long
  have hcond : ((s.setItem i.tag (i.trailed pos)).lanes[l].config.maxLength != 0
      && decide ((s.setItem i.tag (i.trailed pos)).lanes[l].config.maxLength.toNat ≤ (pos - i.leading).toNat)
      && !i.long) = long := hlong
  rw [hcond]
  cases long with
  | false =>
    rw [Bool.and_false, Lane.forcing_false, updLane_eq_self rfl]
    rfl
  | true =>
    have hfound := findLong_live hlive l
    have hforces : (s.setItem i.tag (i.trailed pos)).forces l (i.trailed pos) = s.forces l i := rfl
    have htwice := setItem_setItem s (tag := i.tag) (r := i.trailed pos) rfl ((i.trailed pos).foundLong (s.forces l i))
    rw [if_pos rfl, Bool.and_true]
    refine hfound.trans ?_
    rw [longFound_eq, hforces]
    exact congrArg (fun t => State.arrive (State.updLane t l _) _) htwice

theorem shortAtTrailing_eq {s : State} {i : Item} (h : s.Live i) (l : LaneId) (length : Pos) :
    let short : Bool := decide (length.toNat < s.lanes[l].config.minLength.toNat)
    s.shortAtTrailing l i.tag length
      = (s.setItem i.tag (i.judgedShort short (s.forces l i))).updLane l (Lane.forcing (s.forces l i && short)) := by
  dsimp only
  have hcond : (s.lanes[l].config.minLength != 0 && decide (length.toNat < s.lanes[l].config.minLength.toNat))
      = decide (length.toNat < s.lanes[l].config.minLength.toNat) := by
    by_cases h0 : s.lanes[l].config.minLength = 0
    · rw [h0]
      simp
    · rw [bne_iff_ne.2 h0, Bool.true_and]
  rw [State.shortAtTrailing, hcond]
  generalize decide (length.toNat < s.lanes[l].config.minLength.toNat) = short
  cases short with
  | false =>
    rw [Bool.and_false, Lane.forcing_false, updLane_eq_self rfl]
    exact (setItem_self h).symm
  | true =>
    have hlive : (s.setItem i.tag { i with short := true }).Live { i with short := true } :=
      h.setItem (r := { i with short := true }) rfl
    have hpolicy := applySizePolicy_live hlive l 0xF0
    rw [if_pos rfl, h.updItem, Bool.and_true]
    refine hpolicy.trans ?_
    exact congrArg (State.updLane · l _) (setItem_setItem s (r := { i with short := true }) rfl _)

theorem rekeyOf_congr {s t : State} (hposition : t.position = s.position) (hstations : t.stations = s.stations)
    (tag : Tag) (pos : Pos) : t.rekeyOf tag pos = s.rekeyOf tag pos := by
  funext e
  unfold State.rekeyOf rekeyResult State.hasReached
  rw [hposition, hstations]

/-- Re-keying looks at the list, the tracking position and the stations alone. -/
theorem rekey_congr {s t : State} (hposition : t.position = s.position) (hstations : t.stations = s.stations)
    (hlist : t.list = s.list) (tag : Tag) (pos : Pos) : t.rekey tag pos = { t with list := (s.rekey tag pos).list } := by
  have hof := rekeyOf_congr hposition hstations tag pos
  have hkept : t.rekeyKept tag pos = s.rekeyKept tag pos := by
    funext e
    rw [State.rekeyKept, hof]
    rfl
  have hmoved : t.rekeyMoved tag pos = s.rekeyMoved tag pos := by
    funext e
    rw [State.rekeyMoved, hof]
    rfl
  rw [State.rekey, State.rekey, State.updEntries, State.updEntries, hkept, hmoved, hlist]

theorem State.Live.arriveIf {s : State} {i : Item} (h : s.Live i) (b : Bool) (r : EventRecord) : (s.arriveIf b r).Live i := by
  cases b
  · exact h
  · exact h.arrive r

theorem forcing_config (s : State) (l : LaneId) (forced : Bool) :
    (s.updLane l (Lane.forcing forced)).lanes[l].config = s.lanes[l].config :=
  upd_get_proj (v := s.lanes) (f := Lane.forcing forced) l l Lane.config rfl

theorem forces_congr {s t : State} {l : LaneId} {i j : Item} (hconfig : t.lanes[l].config = s.lanes[l].config)
    (hfinal : j.final = i.final) : t.forces l j = s.forces l i := by
  rw [State.forces, State.forces, hconfig, hfinal]

theorem arriveIf_rekey (s : State) (b : Bool) (r : EventRecord) (tag : Tag) (pos : Pos) :
    (s.arriveIf b r).rekey tag pos = State.arriveIf { s with list := (s.rekey tag pos).list } b r := by
  cases b with
  | false =>
    change s.rekey tag pos = { s with list := (s.rekey tag pos).list }
    exact rekey_congr rfl rfl rfl tag pos
  | true =>
    change (s.arrive r).rekey tag pos = State.arrive { s with list := (s.rekey tag pos).list } r
    rw [arrive_eq, arrive_eq]
    refine rekey_congr (s := s) ?_ ?_ ?_ tag pos <;> rfl

/-- The findings of a trailing edge (steps 1 to 3 of R26). -/
theorem findings_eq {s : State} {i : Item} (h : s.Live i) (l : LaneId) (pos : Pos) :
    let length := pos - i.leading
    let long : Bool := s.lanes[l].config.maxLength != 0 && decide (s.lanes[l].config.maxLength.toNat ≤ length.toNat) && !i.long
    let short : Bool := decide (length.toNat < s.lanes[l].config.minLength.toNat)
    ((s.storeTrailing i pos).longAtTrailing l i length).shortAtTrailing l i.tag length
      = (((s.setItem i.tag (((i.trailed pos).judgedLong long (s.forces l i)).judgedShort short (s.forces l i))).updLane l
            (Lane.forcing (s.forces l i && long))).updLane l (Lane.forcing (s.forces l i && short))).arriveIf long
          (s.recordNow .itemJam (laneUnit l) i.tag 0 0) := by
  dsimp only
  have hlong := longAtTrailing_eq h l pos
  dsimp only at hlong
  rw [hlong]
  generalize (s.lanes[l].config.maxLength != 0 && decide (s.lanes[l].config.maxLength.toNat ≤ (pos - i.leading).toNat)
    && !i.long) = long
  obtain ⟨htag, hfinal⟩ := Item.judgedLong_keeps long (s.forces l i) (i.trailed pos)
  generalize (i.trailed pos).judgedLong long (s.forces l i) = j at htag hfinal
  have htag : j.tag = i.tag := htag
  have hfinal : j.final = i.final := hfinal
  have hset : (s.setItem i.tag j).Live j := h.setItem htag
  have hlive : (((s.setItem i.tag j).updLane l (Lane.forcing (s.forces l i && long))).arriveIf long
      (s.recordNow .itemJam (laneUnit l) i.tag 0 0)).Live j :=
    State.Live.arriveIf (s := (s.setItem i.tag j).updLane l (Lane.forcing (s.forces l i && long))) hset ..
  have hconfig : (((s.setItem i.tag j).updLane l (Lane.forcing (s.forces l i && long))).arriveIf long
      (s.recordNow .itemJam (laneUnit l) i.tag 0 0)).lanes[l].config = s.lanes[l].config := by
    obtain ⟨records, bits, hshape⟩ := arriveIf_shape ((s.setItem i.tag j).updLane l (Lane.forcing (s.forces l i && long))) long
      (s.recordNow .itemJam (laneUnit l) i.tag 0 0)
    rw [hshape]
    exact forcing_config ..
  have hshort := shortAtTrailing_eq hlive l (pos - i.leading)
  dsimp only at hshort
  have hforces : (((s.setItem i.tag j).updLane l (Lane.forcing (s.forces l i && long))).arriveIf long
      (s.recordNow .itemJam (laneUnit l) i.tag 0 0)).forces l j = s.forces l i :=
    forces_congr hconfig hfinal
  rw [hforces, hconfig, htag] at hshort
  rw [hshort, arriveIf_setItem, arriveIf_updLane]
  exact congrArg (fun t => ((State.updLane t l _).updLane l _).arriveIf long _) (setItem_setItem s htag _)

theorem reportTrailing_eq {s : State} {i : Item} (h : s.Live i) (l : LaneId) (pos : Pos) :
    let length := pos - i.leading
    let long : Bool := s.lanes[l].config.maxLength != 0 && decide (s.lanes[l].config.maxLength.toNat ≤ length.toNat) && !i.long
    let short : Bool := decide (length.toNat < s.lanes[l].config.minLength.toNat)
    let found := ((s.setItem i.tag (((i.trailed pos).judgedLong long (s.forces l i)).judgedShort short (s.forces l i))).updLane l
            (Lane.forcing (s.forces l i && long))).updLane l (Lane.forcing (s.forces l i && short))
    s.reportTrailing l i pos
      = State.arrive (State.arriveIf { found with list := (s.rekey i.tag pos).list } long
          (s.recordNow .itemJam (laneUnit l) i.tag 0 0))
        (s.recordNow .itemLength (laneUnit l) i.tag (lo length) (hi length)) := by
  dsimp only
  have hfound := findings_eq h l pos
  dsimp only at hfound
  rw [State.reportTrailing, hfound]
  generalize (s.lanes[l].config.maxLength != 0 && decide (s.lanes[l].config.maxLength.toNat ≤ (pos - i.leading).toNat)
    && !i.long) = long
  generalize decide ((pos - i.leading).toNat < s.lanes[l].config.minLength.toNat) = short
  generalize hu : (((s.setItem i.tag (((i.trailed pos).judgedLong long (s.forces l i)).judgedShort short
    (s.forces l i))).updLane l (Lane.forcing (s.forces l i && long))).updLane l (Lane.forcing (s.forces l i && short))) = u
  have hrekey : (u.rekey i.tag pos).list = (s.rekey i.tag pos).list :=
    (congrArg State.list
      (rekey_congr (s := s) (t := u) (by rw [← hu]; rfl) (by rw [← hu]; rfl) (by rw [← hu]; rfl) i.tag pos) :)
  have hposition : (State.arriveIf { u with list := (s.rekey i.tag pos).list } long
      (s.recordNow .itemJam (laneUnit l) i.tag 0 0)).position = s.position := by
    obtain ⟨records, bits, hshape⟩ := arriveIf_shape { u with list := (s.rekey i.tag pos).list } long
      (s.recordNow .itemJam (laneUnit l) i.tag 0 0)
    rw [hshape, ← hu]
    rfl
  rw [arriveIf_rekey, hrekey, State.report, hposition]
  rfl

/-- The record after a trailing edge, as one update (R26, R29). -/
theorem trailingRecord_eq (i : Item) (pos : Pos) (long short forced : Bool) :
    ((i.trailed pos).judgedLong long forced).judgedShort short forced
      = (let seen : Item := { i with trailing := some pos, length := some (pos - i.leading), long := i.long || long
                                     short := i.short || short }
        if forced && short then { seen with verdict := .reject, source := .forced, reason := 0xF0 }
        else if forced && long then { seen with verdict := .reject, source := .forced, reason := 0xF1 }
        else seen) := by
  cases long <;> cases short <;> cases forced <;>
    simp [Item.judgedLong, Item.judgedShort, Item.foundLong, Item.forcedIf, Item.trailed]

theorem acceptTrailing_requests (s : State) (l : LaneId) (link : Option Tag) (pos : Pos) :
    (s.acceptTrailing l link pos).control.requests = s.control.requests := by
  cases hfind : link.bind s.findItem with
  | none =>
    rw [acceptTrailing_none l pos hfind]
    rfl
  | some i =>
    obtain ⟨-, hcontrol, -⟩ := (notes_findings s l i pos).parts
    have hreport : (s.reportTrailing l i pos).control = s.control := by
      rw [State.reportTrailing, report_eq, arrive_eq]
      exact hcontrol
    rw [acceptTrailing_some l pos hfind]
    exact congrArg Control.requests hreport

/-- Settles O25. -/
theorem trailingEdgeIsReported : Obligations.TrailingEdgeIsReported := by
  unfold Obligations.TrailingEdgeIsReported
  refine ⟨fun s l pos => ⟨acceptTrailing_none l pos rfl, fun i hs hi => ?_⟩,
    fun s l level link candidate hquiet hb hne hlevel hf hd => ?_⟩
  · have hlive : s.Live i := ⟨hs.distinct, hi⟩
    have hreport := reportTrailing_eq hlive l pos
    dsimp only at hreport ⊢
    rw [acceptTrailing_some (link := some i.tag) l pos (i := i) hlive.find, hreport]
    generalize (s.lanes[l].config.maxLength != 0 && decide (s.lanes[l].config.maxLength.toNat ≤ (pos - i.leading).toNat)
      && !i.long) = long
    generalize decide ((pos - i.leading).toNat < s.lanes[l].config.minLength.toNat) = short
    rw [trailingRecord_eq, State.setDetector, arrive_updLane, arriveIf_updLane]
    refine congrArg (fun t => State.arrive (State.arriveIf t long _) _) ?_
    simp only [State.updLane, upd_upd]
    rfl
  · have hin : (s.setDet l level).inputActive l = false := by
      rw [← Bool.not_eq_true, inputActive_setDet, not_not]
      exact hlevel
    have hinput : (s.setDet l level).laneInput l = (s.setDet l level).acceptTrailing l link s.position.tracking :=
      (laneInput_occupied (s := s.setDet l level) (by exact hb) hd).trans
        ((if_neg (by rw [hin]; decide)).trans (if_pos hf))
    rw [exec_detInputChange_quiet hquiet hne, hinput]
    exact congrArg Host.Outcome.next (arriveHalts_none ((acceptTrailing_requests ..).trans hquiet.2))

end Sys2Proof.Machine
end

section
/-! PROOFS. Leading edges (sections 2.3, 3.2, 3.3): pitch-ignored, refused, or enrolled. -/

namespace Sys2Proof.Machine

theorem tooClose_iff (x : Lane) (pos : Pos) : x.tooClose pos = true ↔ x.PitchShort pos := by
  unfold Lane.tooClose Lane.PitchShort
  cases x.previous with
  | none => simp
  | some q => simp

theorem countLane_get (s : State) (l : LaneId) (n : CounterName) :
    (s.countLane l n).lanes[l] = { s.lanes[l] with counters := s.lanes[l].counters.bump n } := upd_get_same ..

theorem tooClose_counted (s : State) (l : LaneId) (pos : Pos) :
    (s.countLane l .leading).lanes[l].tooClose pos = true ↔ s.lanes[l].PitchShort pos := by
  rw [countLane_get, tooClose_iff]
  exact Iff.rfl

/-- The lane that has accepted an edge without a link, its counters changed. -/
def State.followed (s : State) (l : LaneId) (pos : Pos) (f : LaneCounters → LaneCounters) : State :=
  { s with lanes := upd s.lanes l (fun x =>
      { x with detector := .occupied none none, previous := some pos, counters := f x.counters }) }

/-- A refused edge, reported (R24). -/
def State.refused (s : State) (l : LaneId) (pos : Pos) (reason : Word) : State :=
  (s.followed l pos fun c => { c with leading := c.leading + 1, refused := c.refused + 1 }).arrive
    (s.recordNow .itemRefused (laneUnit l) 0 reason 0)

theorem acceptLeading_short {s : State} {l : LaneId} {pos : Pos} (h : s.lanes[l].PitchShort pos) :
    s.acceptLeading l pos
      = s.followed l pos fun c => { c with leading := c.leading + 1, pitchIgnored := c.pitchIgnored + 1 } := by
  rw [State.acceptLeading, if_pos ((tooClose_counted ..).2 h)]
  simp only [State.countLane, State.setDetector, State.updLane, upd_upd]
  rfl

theorem acceptLeading_spaced {s : State} {l : LaneId} {pos : Pos} (h : ¬ s.lanes[l].PitchShort pos) :
    s.acceptLeading l pos
      = ((s.countLane l .leading).requestAdmission l pos).updLane l fun x => { x with previous := some pos } := by
  rw [State.acceptLeading, if_neg fun hc => h ((tooClose_counted ..).1 hc)]

theorem refuseAdmission_eq (s : State) (l : LaneId) (reason : Word) :
    s.refuseAdmission l reason
      = (let reported := ((s.countLane l .refused).setDetector l (.occupied none none)).arrive
            (s.recordNow .itemRefused (laneUnit l) 0 reason 0)
         if s.lanes[l].config.overflow = .halt then reported.requestHalt .queueFull else reported) := by
  dsimp only
  have hset : ((s.countLane l .refused).report .itemRefused (laneUnit l) 0 reason 0).setDetector l (.occupied none none)
      = ((s.countLane l .refused).setDetector l (.occupied none none)).arrive
          (s.recordNow .itemRefused (laneUnit l) 0 reason 0) := arrive_updLane ..
  have hconfig : (((s.countLane l .refused).setDetector l (.occupied none none)).arrive
      (s.recordNow .itemRefused (laneUnit l) 0 reason 0)).lanes[l].config = s.lanes[l].config := by
    rw [arrive_eq]
    change ((s.countLane l .refused).setDetector l (.occupied none none)).lanes[l].config = _
    rw [setDetector_get, countLane_get]
  rw [State.refuseAdmission, hset, hconfig]
  cases s.lanes[l].config.overflow with
  | drop => rfl
  | halt => rfl

theorem acceptLeading_refused {s : State} {l : LaneId} {pos : Pos} {reason : Word} (h : ¬ s.lanes[l].PitchShort pos)
    (hjudge : (s.countLane l .leading).requestAdmission l pos = (s.countLane l .leading).refuseAdmission l reason) :
    s.acceptLeading l pos
      = if s.lanes[l].config.overflow = .halt then (s.refused l pos reason).requestHalt .queueFull
        else s.refused l pos reason := by
  have hconfig : (s.countLane l .leading).lanes[l].config = s.lanes[l].config := countLane_config ..
  have hlanes : ((((s.countLane l .leading).countLane l .refused).setDetector l (.occupied none none)).arrive
      (s.recordNow .itemRefused (laneUnit l) 0 reason 0)).updLane l (fun x => { x with previous := some pos })
      = s.refused l pos reason := by
    rw [arrive_updLane]
    simp only [State.countLane, State.setDetector, State.updLane, upd_upd]
    rfl
  rw [acceptLeading_spaced h, hjudge, refuseAdmission_eq, hconfig]
  dsimp only
  split
  · exact congrArg (State.requestHalt · .queueFull) hlanes
  · exact hlanes

theorem requestAdmission_noRecord {s : State} (h : 64 ≤ s.queue.items.length) (l : LaneId) (pos : Pos) :
    (s.countLane l .leading).requestAdmission l pos = (s.countLane l .leading).refuseAdmission l 1 := by
  rw [State.requestAdmission, State.judgeAdmission, if_pos (by exact h)]

theorem requestAdmission_noSlots {s : State} {l : LaneId} (hroom : s.queue.items.length < 64)
    (h : 192 < s.slotsUsed + s.slotNeed l) (pos : Pos) :
    (s.countLane l .leading).requestAdmission l pos = (s.countLane l .leading).refuseAdmission l 2 := by
  have hslots : ¬ (s.countLane l .leading).hasSlots ((s.countLane l .leading).slotNeed l) = true := by
    simp only [State.hasSlots, decide_eq_true_eq]
    exact not_le.2 h
  rw [State.requestAdmission, State.judgeAdmission, if_neg (by exact not_le.2 hroom), if_neg hslots]

theorem requestAdmission_room {s : State} {l : LaneId} (hroom : s.queue.items.length < 64)
    (h : s.slotsUsed + s.slotNeed l ≤ 192) (pos : Pos) :
    (s.countLane l .leading).requestAdmission l pos
      = ((s.countLane l .leading).admitItem l pos s.giveTag).linkAdmitted l s.giveTag := by
  have hslots : (s.countLane l .leading).hasSlots ((s.countLane l .leading).slotNeed l) = true := decide_eq_true h
  rw [State.requestAdmission, State.judgeAdmission, if_neg (by exact not_le.2 hroom), if_pos hslots]
  rfl

/-- A leading edge accepted at the change of the input, in a lane with filter distance 0 (R20). -/
theorem exec_detInputChange_leading {s : State} {l : LaneId} {level : Level} (h : s.Quiet) (hb : s.blanked = false)
    (hne : s.pins.det[l] ≠ level) (hd : s.lanes[l].detector = .clear) (hlevel : level ≠ s.lanes[l].config.activeLow)
    (hf : s.lanes[l].config.filter = 0) :
    exec (.detInputChange l level) s = .next ((s.setDet l level).acceptLeading l s.position.tracking).arriveHalts := by
  have hin := (inputActive_setDet s l level).2 hlevel
  have hinput : (s.setDet l level).laneInput l = (s.setDet l level).acceptLeading l s.position.tracking :=
    (laneInput_clear (s := s.setDet l level) (by exact hb) hd hin).trans (if_pos hf)
  rw [exec_detInputChange_quiet h hne, hinput]

theorem refused_requests (s : State) (l : LaneId) (pos : Pos) (reason : Word) :
    (s.refused l pos reason).control = s.control := by
  rw [State.refused, arrive_eq]
  rfl

/-- Settles O24. -/
theorem leadingEdgeIsRefused : Obligations.LeadingEdgeIsRefused := by
  unfold Obligations.LeadingEdgeIsRefused
  refine ⟨fun s l pos => ⟨acceptLeading_short, fun hs hfull => ?_, fun hs hroom hslots => ?_⟩,
    fun s l level hquiet ho hr hne hd hlevel hf => ?_⟩
  · exact acceptLeading_refused hs (requestAdmission_noRecord hfull l pos)
  · exact acceptLeading_refused hs (requestAdmission_noSlots hroom hslots pos)
  · dsimp only
    have hexec := exec_detInputChange_leading hquiet (blanked_of ho hr) hne hd hlevel hf
    have hrequests : s.control.requests = [] := hquiet.2
    have hends {reason : Word} (hshort : ¬ s.lanes[l].PitchShort s.position.tracking)
        (hjudge : ((s.setDet l level).countLane l .leading).requestAdmission l s.position.tracking
          = ((s.setDet l level).countLane l .leading).refuseAdmission l reason) :
        if s.lanes[l].config.overflow = .halt then
          ((s.setDet l level).refused l s.position.tracking reason).Requested .queueFull (exec (.detInputChange l level) s)
        else exec (.detInputChange l level) s = .next ((s.setDet l level).refused l s.position.tracking reason) := by
      have hnone : ((s.setDet l level).refused l s.position.tracking reason).control.requests = [] :=
        (congrArg Control.requests (refused_requests ..)).trans hrequests
      rw [hexec, acceptLeading_refused (s := s.setDet l level) hshort hjudge,
        show (s.setDet l level).lanes[l].config.overflow = s.lanes[l].config.overflow from rfl]
      split
      · exact raised_arrives hnone
      · exact congrArg Host.Outcome.next (arriveHalts_none hnone)
    refine ⟨fun hshort => ?_, fun hs hfull => ?_, fun hs hroom hslots => ?_⟩
    · rw [hexec, acceptLeading_short (s := s.setDet l level) hshort]
      exact congrArg Host.Outcome.next (arriveHalts_none hrequests)
    · exact hends hs (requestAdmission_noRecord (s := s.setDet l level) hfull l _)
    · exact hends hs (requestAdmission_noSlots (s := s.setDet l level) hroom hslots _)

/-! ### An edge with room (R22, R23, R37, R40) -/

/-- The lane linked to its enrolled item. -/
def Lane.enrolling (tag : Tag) (x : Lane) : Lane :=
  { x with
    detector := .occupied (some tag) none
    counters := { x.counters with leading := x.counters.leading + 1, admitted := x.counters.admitted + 1 } }

/-- The part once an item is enrolled and reported, its lane changed by `f`. -/
def State.enrolledWith (s : State) (l : LaneId) (pos : Pos) (tag : Tag) (f : Lane → Lane) : State :=
  State.arrive
    { s with
      queue := { items := s.queue.items ++ [newItem tag l pos s.lanes[l].config.defaultClass], nextTag := succTag tag }
      list := { s.list with entries :=
        (s.plan l pos tag).foldl (fun es e => insertEntry s.list.firingPoint e es) s.list.entries }
      lanes := upd s.lanes l f }
    (s.recordNow .itemAdmitted (laneUnit l) tag (lo pos) (hi pos))

/-- The part once an item is enrolled, reported and linked, before a LONG finding. -/
def State.enrolled (s : State) (l : LaneId) (pos : Pos) (tag : Tag) : State :=
  s.enrolledWith l pos tag fun x => { x.enrolling tag with previous := some pos }

theorem enrolledWith_updLane (s : State) (l : LaneId) (pos : Pos) (tag : Tag) (f g : Lane → Lane) :
    (s.enrolledWith l pos tag f).updLane l g = s.enrolledWith l pos tag fun x => g (f x) := by
  rw [State.enrolledWith, arrive_updLane, State.updLane, upd_upd]
  rfl

theorem plan_counted (s : State) (l : LaneId) (pos : Pos) (tag : Tag) (n : CounterName) :
    (s.countLane l n).plan l pos tag = s.plan l pos tag := by
  have hconfig : (s.countLane l n).lanes[l].config = s.lanes[l].config := countLane_config ..
  rw [State.plan, State.plan, hconfig]
  rfl

/-- An item enrolled and linked, up to the LONG finding that may come at once (R23, R40). -/
theorem linkAdmitted_eq (s : State) (l : LaneId) (pos : Pos) (tag : Tag) :
    ((s.countLane l .leading).admitItem l pos tag).linkAdmitted l tag
      = (s.enrolledWith l pos tag (Lane.enrolling tag)).checkLong l := by
  have hconfig : (s.countLane l .leading).lanes[l].config = s.lanes[l].config := countLane_config ..
  have hadmit : (s.countLane l .leading).admitItem l pos tag
      = s.enrolledWith l pos tag fun x => { x with counters := x.counters.bump .leading } := by
    rw [admitItem_eq_enroll, enroll_eq, plan_counted, hconfig]
    rfl
  rw [State.linkAdmitted, hadmit, State.countLane, State.setDetector, enrolledWith_updLane, enrolledWith_updLane]
  rfl

theorem longFound_updLane (s : State) (l : LaneId) (i : Item) {f : Lane → Lane}
    (hconfig : ∀ x, (f x).config = x.config) (hcounters : ∀ x forced, Lane.forcing forced (f x) = f (Lane.forcing forced x)) :
    (s.longFound l i).updLane l f = (s.updLane l f).longFound l i := by
  have hforces : (s.updLane l f).forces l i = s.forces l i :=
    forces_congr ((congrArg Lane.config (upd_get_same s.lanes l f) :).trans (hconfig _)) rfl
  rw [longFound_eq, longFound_eq, hforces, arrive_updLane, updLane_updLane]
  simp only [← hcounters]
  exact congrArg (State.arrive · _) (updLane_updLane (s.setItem i.tag _) l f (Lane.forcing (s.forces l i))).symm

/-- What the LONG finding looks at, once the item is enrolled. -/
theorem enrolling_parts (s : State) (l : LaneId) (pos : Pos) (tag : Tag) :
    let u := s.enrolledWith l pos tag (Lane.enrolling tag)
    u.lanes[l] = s.lanes[l].enrolling tag ∧ u.position = s.position ∧ u.control = s.control ∧ u.pins = s.pins
      ∧ u.queue.items = s.queue.items ++ [newItem tag l pos s.lanes[l].config.defaultClass] := by
  dsimp only
  rw [State.enrolledWith, arrive_eq]
  exact ⟨upd_get_same .., rfl, rfl, rfl, rfl⟩

theorem enrolling_live {s : State} {tag : Tag} (l : LaneId) (pos : Pos) (hnodup : (s.queue.items.map Item.tag).Nodup) (hfresh : ∀ i ∈ s.queue.items, i.tag ≠ tag) :
    (s.enrolledWith l pos tag (Lane.enrolling tag)).Live (newItem tag l pos s.lanes[l].config.defaultClass) := by
  obtain ⟨-, -, -, -, hitems⟩ := enrolling_parts s l pos tag
  rw [State.Live, hitems, List.map_append]
  refine ⟨List.nodup_append.2 ⟨hnodup, List.nodup_singleton _, ?_⟩, by simp⟩
  intro a ha b hb
  obtain ⟨i, hi, rfl⟩ := List.mem_map.1 ha
  rw [List.map_singleton, List.mem_singleton] at hb
  rw [hb]
  exact hfresh i hi

theorem enrolling_conditions (s : State) (l : LaneId) (pos : Pos) (tag : Tag) (i : Item) :
    let u := s.enrolledWith l pos tag (Lane.enrolling tag)
    u.blanked = s.blanked ∧ u.inputActive l = s.inputActive l ∧ (u.LongHolds l i ↔ s.LongHolds l i) := by
  dsimp only
  obtain ⟨hlane, hposition, hcontrol, hpins, -⟩ := enrolling_parts s l pos tag
  refine ⟨?_, ?_, ?_⟩
  · rw [State.blanked, State.reverse, hcontrol, hposition]
    rfl
  · rw [State.inputActive, hlane, hpins]
    rfl
  · rw [State.LongHolds, hlane, hposition]
    exact Iff.rfl

/-- An edge with room, up to the LONG finding that may come at once. -/
theorem acceptLeading_room {s : State} {l : LaneId} {pos : Pos} (hspaced : ¬ s.lanes[l].PitchShort pos)
    (hroom : s.queue.items.length < 64) (hslots : s.slotsUsed + s.slotNeed l ≤ 192) :
    s.acceptLeading l pos = ((s.enrolledWith l pos s.giveTag (Lane.enrolling s.giveTag)).checkLong l).updLane l
      fun x => { x with previous := some pos } := by
  rw [acceptLeading_spaced hspaced, requestAdmission_room hroom hslots, linkAdmitted_eq]

/-- Settles O22. -/
theorem leadingEdgeIsAdmitted : Obligations.LeadingEdgeIsAdmitted := by
  unfold Obligations.LeadingEdgeIsAdmitted
  refine ⟨fun s l pos hs hspaced hroom hslots => ?_, fun s l level hquiet hb hne hd hlevel hf =>
    exec_detInputChange_leading hquiet hb hne hd hlevel hf⟩
  dsimp only
  obtain ⟨k, hgive, hbefore, hfree⟩ := giveTag_spec hroom hs.next
  have hfresh : ∀ i ∈ s.queue.items, i.tag ≠ s.giveTag := fun i hi htag => by
    have hheld := holdsTag_iff.2 (List.mem_map.2 ⟨i, hi, htag⟩)
    rw [hfree] at hheld
    cases hheld
  have hlive := enrolling_live l pos hs.distinct hfresh
  have haccept := acceptLeading_room hspaced hroom hslots
  obtain ⟨hlane, -, -, -, hitems⟩ := enrolling_parts s l pos s.giveTag
  have hdetector : (s.enrolledWith l pos s.giveTag (Lane.enrolling s.giveTag)).lanes[l].detector
      = .occupied (some s.giveTag) none := congrArg Lane.detector hlane
  refine ⟨s.giveTag, k, hgive, fun j hj => ?_, giveTag_ne_zero hroom hs.next, hfresh, fun hnot => ?_,
    fun hb hin hlong => ?_⟩
  · obtain ⟨i, hi, htag⟩ := List.mem_map.1 (holdsTag_iff.1 (hbefore j hj))
    exact ⟨i, hi, htag⟩
  · have hnone : (s.enrolledWith l pos s.giveTag (Lane.enrolling s.giveTag)).checkLong l
        = s.enrolledWith l pos s.giveTag (Lane.enrolling s.giveTag) := by
      refine checkLong_none hdetector ?_
      obtain ⟨hblanked, hactive, hholds⟩ := enrolling_conditions s l pos s.giveTag
        (newItem s.giveTag l pos s.lanes[l].config.defaultClass)
      refine hnot.imp (fun h => hblanked.trans h) (Or.imp (fun h => hactive.trans h) fun h i hi htag => ?_)
      rw [List.inj_on_of_nodup_map hlive.1 hi hlive.2 (Option.some.inj htag).symm]
      exact fun hlong => h (hholds.1 hlong)
    rw [haccept, hnone, enrolledWith_updLane]
    rfl
  · obtain ⟨hblanked, hactive, hholds⟩ := enrolling_conditions s l pos s.giveTag
      (newItem s.giveTag l pos s.lanes[l].config.defaultClass)
    have hfound := checkLong_found hlive hdetector (hblanked.trans hb) (hactive.trans hin) (hholds.2 hlong)
    rw [haccept, hfound, longFound_updLane (f := fun x => { x with previous := some pos }) _ _ _ (fun _ => rfl) (fun _ _ => rfl),
      enrolledWith_updLane]
    rfl

end Sys2Proof.Machine
end

section
/-! PROOFS. The event queue (Chapter 9): arrivals, and reads of EVENT_DATA. -/

namespace Sys2Proof.Machine

/-! ### Arrivals (R154 to R156, R160) -/

theorem masks_iff (q : EventQueue) (k : EventKind) :
    q.masks k = true ↔ k.code ≤ 9 ∧ q.mask.getLsbD (k.code - 1) = true := by
  cases k <;> simp [EventQueue.masks, EventKind.code]

/-- The bits an arrival that is not masked sets. -/
theorem arrivedBits_unmasked {q : EventQueue} {r : EventRecord} (h : ¬ q.masks r.kind = true) :
    arrivedBits q r
      = (if q.records.length + 1 ≤ 32 ∧ q.records.length + 1 = q.threshold.toNat then 2 else 0)
          ||| (if q.records.length + 2 ≤ 32 then 0 else 8) := if_neg h

theorem loseOne_full {r : EventRecord} (h : joinWords r.auxA r.auxB = 0xFFFFFFFF) : r.loseOne = r :=
  if_neg fun hc => hc.2 h

theorem loseOne_lost {r : EventRecord} (hk : r.kind = .eventsLost) (h : joinWords r.auxA r.auxB ≠ 0xFFFFFFFF) :
    r.loseOne = { r with auxA := lo (joinWords r.auxA r.auxB + 1), auxB := hi (joinWords r.auxA r.auxB + 1) } :=
  if_pos ⟨hk, h⟩

/-- Settles O29, by the free slots. -/
theorem eventArrivesByFreeSlots : Obligations.EventArrivesByFreeSlots := by
  unfold Obligations.EventArrivesByFreeSlots
  intro s r
  dsimp only
  have hor (b : BitVec 4) : b ||| 0 = b := BitVec.or_zero
  rw [← masks_iff, arrive_eq]
  refine ⟨fun hmask => ?_, fun hmask hroom => ?_, fun hmask hone => ?_, fun older tail hmask hfull hrecords hkind => ?_⟩
  · rw [arrivedRecords, arrivedBits, if_pos hmask, if_pos hmask, hor]
  · have hle : s.events.records.length + 1 ≤ 32 := by omega
    rw [arrivedRecords, if_neg hmask, if_pos hroom, arrivedBits_unmasked hmask, if_pos hroom, hor]
    simp only [hle, true_and]
  · have hroom : ¬ s.events.records.length + 2 ≤ 32 := by omega
    have hle : s.events.records.length + 1 ≤ 32 := by omega
    rw [arrivedRecords, if_neg hmask, if_neg hroom, if_pos (by omega), arrivedBits_unmasked hmask, if_neg hroom]
    simp only [hle, true_and]
    rfl
  · have hroom : ¬ s.events.records.length + 2 ≤ 32 := by omega
    have hbits : arrivedBits s.events r = 8 := by
      rw [arrivedBits_unmasked hmask, if_neg hroom, if_neg (by omega)]
      rfl
    have hkept : arrivedRecords s.events s.position.tracking r = older ++ [tail.loseOne] := by
      rw [arrivedRecords, if_neg hmask, if_neg hroom, if_neg (by omega), hrecords, mapLast_append]
    rw [hbits, hkept]
    refine ⟨fun hcount => ?_, fun hcount => ?_⟩
    · rw [loseOne_full hcount, ← hrecords]
    · rw [loseOne_lost hkind hcount]

/-! ### Reads of EVENT_DATA (R157, R158) -/

/-- A read cycle in a part that runs, with no request on its way and an effect that raises none. -/
theorem readCycle_quiet {s : State} {register : BitVec 5} {effect : State → State} (h : s.Quiet)
    (hr : (effect s).control = s.control) :
    s.readCycle register effect = (effect s).answerRead (s.registerRead register) := by
  obtain ⟨hrun, hquiet⟩ := id h
  rw [State.readCycle, amid_quiet h, if_pos hrun]
  exact arriveHalts_none ((congrArg Control.requests hr).trans hquiet)

/-- A read of EVENT_DATA, whatever the state. -/
def State.readEvent (s : State) : State := s.readCycle 24 State.popEventWord

theorem after_replicate_read (n : Nat) (s : State) : s.after (List.replicate n .eventDataRead) = State.readEvent^[n] s := by
  induction n generalizing s with
  | zero => rfl
  | succ n ih => exact ih s.readEvent

/-- The word of a record that an index names (section 10.4). -/
theorem word_eq (r : EventRecord) (k : Fin 6) :
    r.word k = #v[BitVec.ofNat 16 (256 * r.kind.code + 16 * r.unit.toNat + r.low.toNat), r.tag, lo r.position,
      hi r.position, r.auxA, r.auxB][k] := by
  have hunit := r.unit.isLt
  have hlow := r.low.isLt
  have hcode : r.kind.code < 16 := by cases r.kind <;> decide
  have h0 : (fieldAt 0 r.low.toNat).toNat = r.low.toNat := by
    rw [fieldAt, BitVec.toNat_ofNat]
    omega
  have hw0 : fieldAt 8 r.kind.code ||| fieldAt 4 r.unit.toNat ||| fieldAt 0 r.low.toNat
      = BitVec.ofNat 16 (256 * r.kind.code + 16 * r.unit.toNat + r.low.toNat) := by
    have h04 := fieldAt_or_low (low := fieldAt 0 r.low.toNat) 4 r.unit.toNat (by omega) (by omega)
    have hsum : (fieldAt 0 r.low.toNat ||| fieldAt 4 r.unit.toNat).toNat = r.low.toNat + r.unit.toNat * 2 ^ 4 := by
      rw [h04, BitVec.toNat_ofNat, h0]
      omega
    have h048 := fieldAt_or_low (low := fieldAt 0 r.low.toNat ||| fieldAt 4 r.unit.toNat) 8 r.kind.code (by omega) (by omega)
    rw [BitVec.or_assoc, BitVec.or_comm, BitVec.or_comm (fieldAt 4 _), h048, hsum]
    congr 1
    omega
  fin_cases k
  · exact hw0
  all_goals rfl

theorem eventDataWord_head {s : State} {r : EventRecord} {rest : List EventRecord} (h : s.events.records = r :: rest) :
    s.eventDataWord = r.word s.events.index := by
  rw [State.eventDataWord, h]

/-- A read before the last word of the head record, and the read of the last (R157). -/
theorem readEvent_word {s : State} {r : EventRecord} {rest : List EventRecord} (h : s.Quiet)
    (hrecords : s.events.records = r :: rest) :
    (s.events.index ≠ 5 → s.readEvent
      = { s with events := { s.events with index := s.events.index + 1 }, readData := r.word s.events.index })
    ∧ (s.events.index = 5 → s.readEvent
      = { s with events := { s.events with records := rest, index := 0 }, readData := r.word s.events.index }) := by
  obtain ⟨hrun, -⟩ := id h
  have hread : s.registerRead 24 = r.word s.events.index := by
    rw [State.registerRead, if_pos hrun]
    exact eventDataWord_head hrecords
  rw [State.readEvent, readCycle_quiet h (popEventWord_control s), hread, State.popEventWord, hrecords]
  dsimp only
  refine ⟨fun hne => ?_, fun heq => ?_⟩
  · rw [if_neg hne]
    rfl
  · rw [if_pos heq]
    rfl

/-- The first words of the head record, read one after another from a rewound index. -/
theorem readEvent_iterate {s : State} {r : EventRecord} {rest : List EventRecord} (h : s.Quiet)
    (hrecords : s.events.records = r :: rest) (hindex : s.events.index = 0) {k : Nat} (hk : k < 5) :
    State.readEvent^[k + 1] s = { s with events := { s.events with index := Fin.ofNat 6 (k + 1) }
                                         readData := r.word (Fin.ofNat 6 k) } := by
  induction k with
  | zero =>
    obtain ⟨hword, -⟩ := readEvent_word h hrecords
    refine (hword (by rw [hindex]; decide)).trans ?_
    rw [hindex]
    rfl
  | succ k ih =>
    have hne : Fin.ofNat 6 (k + 1) ≠ 5 := fun heq => by
      have := congrArg Fin.val heq
      simp only [Fin.ofNat] at this
      omega
    rw [Function.iterate_succ_apply', ih (by omega)]
    obtain ⟨hword, -⟩ := readEvent_word (s := { s with events := { s.events with index := Fin.ofNat 6 (k + 1) }
                                                       readData := r.word (Fin.ofNat 6 k) }) (rest := rest) h hrecords
    refine (hword hne).trans ?_
    have hnext : Fin.ofNat 6 (k + 1) + 1 = Fin.ofNat 6 (k + 1 + 1) := by
      refine Fin.ext ?_
      simp [Fin.ofNat, Fin.val_add]
    rw [hnext]

/-- Settles O30. -/
theorem eventDataReads : Obligations.EventDataReads := by
  unfold Obligations.EventDataReads
  refine ⟨fun s h => ⟨fun hempty => ?_, fun r rest hrecords => ?_⟩, fun s r rest value h hrecords => ⟨?_, fun hindex => ?_⟩⟩
  · have hpop : s.popEventWord = s := by rw [State.popEventWord, hempty]
    have hzero : s.registerRead 24 = 0 := by
      rw [State.registerRead, if_pos h.1]
      exact (congrArg (fun records => match records with | [] => (0 : Word) | r :: _ => r.word s.events.index) hempty :)
    refine congrArg Host.Outcome.next ((readCycle_quiet h (popEventWord_control s)).trans ?_)
    rw [hpop, hzero]
    rfl
  · dsimp only
    rw [← word_eq]
    obtain ⟨hword, hlast⟩ := readEvent_word h hrecords
    exact ⟨fun hne => congrArg Host.Outcome.next (hword hne), fun heq => congrArg Host.Outcome.next (hlast heq)⟩
  · exact congrArg Host.Outcome.next (writeCycle_quiet h rfl)
  · have hsix : State.readEvent^[6] s = { s with events := { s.events with records := rest }, readData := r.auxB } := by
      obtain ⟨-, hlast⟩ := readEvent_word (s := { s with events := { s.events with index := Fin.ofNat 6 (4 + 1) }
                                                         readData := r.word (Fin.ofNat 6 4) }) (rest := rest) h hrecords
      rw [Function.iterate_succ_apply', readEvent_iterate h hrecords hindex (k := 4) (by decide)]
      refine (hlast rfl).trans ?_
      rw [← hindex]
      rfl
    have hread {k : Nat} (hk : k < 5) :
        (s.after (List.replicate (k + 1) .eventDataRead)).readData = r.word (Fin.ofNat 6 k) := by
      rw [after_replicate_read, readEvent_iterate h hrecords hindex hk]
    have hlast : (s.after (List.replicate 6 .eventDataRead)).readData = r.auxB := by rw [after_replicate_read, hsix]
    refine ⟨?_, (after_replicate_read 6 s).trans hsix⟩
    change [(s.after (List.replicate (0 + 1) .eventDataRead)).readData, (s.after (List.replicate (1 + 1) .eventDataRead)).readData,
      (s.after (List.replicate (2 + 1) .eventDataRead)).readData, (s.after (List.replicate (3 + 1) .eventDataRead)).readData,
      (s.after (List.replicate (4 + 1) .eventDataRead)).readData, (s.after (List.replicate 6 .eventDataRead)).readData] = _
    rw [hread (by decide), hread (by decide), hread (by decide), hread (by decide), hread (by decide), hlast, word_eq]
    rfl

end Sys2Proof.Machine
end

section
/-! PROOFS. Halt entry, and halt requests on their way (sections 8.1 to 8.3). -/

namespace Sys2Proof.Machine

/-! ### Halt entry (R141) -/

theorem haltEntry_arrive (s : State) (c : Cause) :
    s.haltEntry c = ((s.haltTaken c).arrive
      (s.recordNow .halted 0 0 c.code ((s.control.causeMask ||| c.bit).zeroExtend 16))).raiseInt intHalt := rfl

theorem haltTaken_output (s : State) (c : Cause) (ho : s.control.op = .tracking) (o : OutputId) :
    (s.haltTaken c).outputs[o] = { s.outputs[o] with
      held := if s.outputs[o].fault = .hold then some (decide (0 < s.holders o)) else none } := by
  have hactive : s.lineActive o = decide (0 < s.holders o) := by rw [State.lineActive, ho]
  refine (takeFaultActions_output s o).trans ?_
  rw [hactive]
  cases s.outputs[o].fault <;> rfl

theorem lineActive_halted {s : State} (h : s.control.op = .halted) (o : OutputId) :
    s.lineActive o = true ↔ s.outputs[o].fault = .hold ∧ s.outputs[o].held = some true := by
  rw [State.lineActive, h]
  dsimp only
  cases s.outputs[o].fault <;> simp

theorem haltTaken_eq (s : State) (c : Cause) :
    s.haltTaken c =
      { s with
        control := { s.control with op := .halted, firstCause := some c, causeMask := s.control.causeMask ||| c.bit }
        list := { s.list with firingPoint := s.position.tracking }
        stations := mapAll (fun st => { st with watches := [] }) s.stations
        outputs := s.takeFaultActions.outputs } := by
  simp only [State.haltTaken, State.discardWatches, State.takeFaultActions]

/-- Halt entry, piece by piece. -/
theorem haltEntry_pieces (s : State) (c : Cause) :
    let queued := s.arrive (s.recordNow .halted 0 0 c.code ((s.control.causeMask ||| c.bit).zeroExtend 16))
    s.haltEntry c =
      { s with
        control := { s.control with op := .halted, firstCause := some c, causeMask := s.control.causeMask ||| c.bit }
        list := { s.list with firingPoint := s.position.tracking }
        events := queued.events
        host := { s.host with intStatus := queued.host.intStatus ||| 4 }
        stations := mapAll (fun st => { st with watches := [] }) s.stations
        outputs := s.takeFaultActions.outputs } := by
  dsimp only
  rw [haltEntry_arrive, haltTaken_eq, arrive_eq, arrive_eq]
  rfl

/-! ### Requests on their way, taken one after another (R140, R143) -/

/-- The requests on their way play no part in the taking of another. -/
theorem takeHalt_withRequests (s : State) (c : Cause) (cs : List Cause) :
    (s.withRequests cs).takeHalt c = (s.takeHalt c).withRequests cs := by
  cases h : s.control.op with
  | setup => rw [takeHalt_setup c h, takeHalt_setup c (by exact h)]
  | tracking =>
    have hlines : (s.withRequests cs).lineActive = s.lineActive := rfl
    have hfault : (s.withRequests cs).takeFaultActions = s.takeFaultActions.withRequests cs := by
      rw [State.takeFaultActions, State.takeFaultActions, hlines, State.withRequests, State.withRequests]
    rw [takeHalt_tracking c h, takeHalt_tracking c (by exact h), haltEntry_pieces, haltEntry_pieces, hfault, arrive_eq,
      arrive_eq]
    rfl
  | halted =>
    rw [takeHalt_halted c h, takeHalt_halted c (by exact h)]
    rfl

theorem foldl_takeHalt_choices (cs : List Cause) (s : State) (n : Nat) :
    cs.foldl State.takeHalt (s.chosen n) = (cs.foldl State.takeHalt s).chosen n := by
  induction cs generalizing s with
  | nil => rfl
  | cons c cs ih =>
    rw [List.foldl_cons, List.foldl_cons, ← ih]
    exact congrArg (cs.foldl State.takeHalt) (takeHalt_choices s c n)

/-- In `t` operating control has taken some of the requests that are on their way in `s`, one after another. -/
def State.Arrived (s t : State) (waits : Prop) : Prop :=
  ∃ (taken left : List Cause) (n : Nat), (taken ++ left).Perm s.control.requests
    ∧ t = (taken.foldl State.takeHalt (s.withRequests left)).chosen n
    ∧ (¬ waits → left = []) ∧ (s.control.requests = [] → n = s.choices)

theorem arrived_none {s : State} (waits : Prop) (h : s.control.requests = []) : s.Arrived s waits := by
  refine ⟨[], [], s.choices, by rw [h]; exact .refl _, ?_, fun _ => rfl, fun _ => rfl⟩
  have hself : s.withRequests [] = s := h ▸ withRequests_self s
  exact hself.symm

/-- A free choice counted is a number of choices made. -/
theorem countChoice_eq {α : Type} (s : State) (xs : List α) :
    s.countChoice xs = s.chosen (if 2 ≤ xs.length then s.choices + 1 else s.choices) := by
  unfold State.countChoice
  split <;> rfl

theorem arrivals_requests (s : State) (mayWait : Bool) : (s.arrivals mayWait).filterMap id = s.control.requests := by
  rw [State.arrivals, List.filterMap_append, List.filterMap_map]
  cases mayWait <;> simp

/-- A request taken first, and then some of the others. -/
theorem State.Arrived.cons {s t : State} {waits : Prop} {c : Cause} {cs : List Cause} {m : Nat}
    (hperm : (c :: cs).Perm s.control.requests)
    (h : State.Arrived (((s.chosen m).withRequests cs).takeHalt c) t waits) : s.Arrived t waits := by
  obtain ⟨taken, left, n, htaken, ht, hleft, -⟩ := h
  rw [takeHalt_requests] at htaken
  refine ⟨c :: taken, left, n, (htaken.cons c).trans hperm, ?_, hleft, fun hnone => ?_⟩
  · have hfirst : (((s.chosen m).withRequests cs).takeHalt c).withRequests left
        = ((s.withRequests left).takeHalt c).chosen m := by
      rw [← takeHalt_withRequests]
      exact takeHalt_choices (s.withRequests left) c m
    rw [ht, hfirst, foldl_takeHalt_choices]
    rfl
  · rw [hnone] at hperm
    exact absurd hperm (by simp)

theorem takeRequests_arrived (mayWait : Bool) (fuel : Nat) (s : State) (h : s.control.requests.length ≤ fuel) :
    s.Arrived (s.takeRequests mayWait fuel) (mayWait = true) := by
  induction fuel generalizing s with
  | zero => exact arrived_none _ (List.length_eq_zero_iff.1 (Nat.le_zero.1 h))
  | succ fuel ih =>
    simp only [State.takeRequests]
    split
    next hpick =>
      have hempty := pick_isSome (Config.choice s.choices) (s.arrivals mayWait)
      rw [hpick] at hempty
      have hnil : s.arrivals mayWait = [] := by simpa using hempty
      exact arrived_none _ (by rw [← arrivals_requests s mayWait, hnil]; rfl)
    next rest hpick =>
      have hmem := (pick_perm hpick).mem_iff.2 List.mem_cons_self
      have hwaits : mayWait = true := by
        cases mayWait with
        | true => rfl
        | false => simp [State.arrivals] at hmem
      refine ⟨[], s.control.requests, _, .refl _, countChoice_eq .., fun hnot => absurd hwaits hnot, fun hnone => ?_⟩
      refine if_neg ?_
      simp [State.arrivals, hwaits, hnone]
    next c rest hpick =>
      have hperm : (c :: rest.filterMap id).Perm s.control.requests := by
        have hmap := (pick_perm hpick).filterMap id
        rw [arrivals_requests] at hmap
        exact hmap.symm
      have hlength := hperm.length_eq
      rw [List.length_cons] at hlength
      rw [countChoice_eq]
      exact State.Arrived.cons hperm (ih _ (by rw [takeHalt_requests]; exact (by omega : (rest.filterMap id).length ≤ fuel)))

theorem foldl_takeHalt_setup (cs : List Cause) {s : State} (h : s.control.op = .setup) : cs.foldl State.takeHalt s = s := by
  induction cs with
  | nil => rfl
  | cons c cs ih => rw [List.foldl_cons, takeHalt_setup c h, ih]

theorem State.Arrived.mono {s t : State} {waits waits' : Prop} (h : s.Arrived t waits) (hw : waits → waits') :
    s.Arrived t waits' := by
  obtain ⟨taken, left, n, hperm, ht, hleft, hn⟩ := h
  exact ⟨taken, left, n, hperm, ht, fun hnot => hleft fun hw' => hnot (hw hw'), hn⟩

/-- Requests arrive: in SETUP all are let go, elsewhere they are taken, and one may wait while commands wait. -/
theorem arriveHalts_arrived (s : State) : s.Arrived s.arriveHalts (s.control.op ≠ .setup ∧ s.pending ≠ []) := by
  have htaken (ho : s.control.op ≠ .setup) :
      s.Arrived (s.takeRequests (!s.pending.isEmpty) s.control.requests.length) (s.control.op ≠ .setup ∧ s.pending ≠ []) :=
    (takeRequests_arrived _ _ s le_rfl).mono fun hw => ⟨ho, by simpa using hw⟩
  unfold State.arriveHalts
  split
  next ho =>
    refine ⟨s.control.requests, [], s.choices, by rw [List.append_nil], ?_, fun _ => rfl, fun _ => rfl⟩
    rw [foldl_takeHalt_setup _ (by exact ho)]
    rfl
  next ho => exact htaken (ho.trans_ne (by simp))
  next ho => exact htaken (ho.trans_ne (by simp))

/-! ### A command taken amid requests (R143) -/

/-- Every command but a reset has its effect amid the requests on their way, which its effect does not look at. -/
theorem exec_amid {c : Instr} (s : State) (hc : isResetCommand c = false) :
    ∃ e : State → State, exec c s = .next (s.amid e) ∧ exec c (s.withRequests []) = .next ((s.withRequests []).amid e) := by
  cases c with
  | powerApplied => cases hc
  | powerOnResetEnd => cases hc
  | resetNAssert => cases hc
  | resetNRelease => cases hc
  | powerLoss => cases hc
  | unknownCommand =>
    change ∃ e : State → State, execUnknownCommand s = .next (s.amid e)
      ∧ execUnknownCommand (s.withRequests []) = .next ((s.withRequests []).amid e)
    unfold execUnknownCommand
    by_cases hk : commandCodes.contains s.host.lastCode = true
    · rw [if_pos hk, if_pos (by exact hk)]
      exact ⟨_, rfl, rfl⟩
    · rw [if_neg hk, if_neg (by exact hk)]
      exact ⟨_, rfl, rfl⟩
  | _ => exact ⟨_, rfl, rfl⟩

theorem amid_requests {s : State} (hrun : s.running = true) (ho : s.control.op ≠ .setup) (e : State → State) :
    (s.withRequests []).amid e = (e (s.withRequests [])).arriveHalts
    ∧ s.amid e = ((e (s.withRequests [])).withRequests
        (s.control.requests ++ (e (s.withRequests [])).control.requests)).arriveHalts := by
  have hbefore : s.requestsBefore = s.control.requests := by
    unfold State.requestsBefore
    split
    next h => exact absurd h ho
    next => rfl
    next => rfl
  refine ⟨amid_quiet ⟨hrun, rfl⟩, ?_⟩
  rw [State.amid, if_pos hrun, hbefore]

/-- Settles O26. -/
theorem haltRequestsByState : Obligations.HaltRequestsByState := by
  unfold Obligations.HaltRequestsByState
  refine ⟨fun s c ho => ?_, fun s c => ⟨takeHalt_halted c, takeHalt_setup c⟩, fun s => ?_, fun c s hc hrun ho => ?_⟩
  · dsimp only
    rw [takeHalt_tracking c ho, haltEntry_pieces]
    have houtput := haltTaken_output s c ho
    refine ⟨rfl, rfl, rfl, rfl, fun n => mapAll_get .., fun o => houtput o, fun o => (lineActive_halted rfl o).trans ?_, rfl, rfl⟩
    have hline : s.takeFaultActions.outputs[o] = _ := houtput o
    rw [hline]
    rw [ite_eq_iff]
    simp
  · obtain ⟨taken, left, n, hperm, heq, hleft, hn⟩ := arriveHalts_arrived s
    refine ⟨taken, left, n, hperm, heq, fun hquiet => hleft fun ⟨hop, hwait⟩ => ?_, hn⟩
    exact hquiet.elim hwait hop
  · obtain ⟨e, hexec, hcarrying⟩ := exec_amid s hc
    obtain ⟨halone, hamid⟩ := amid_requests hrun ho e
    refine ⟨e (s.withRequests []), ?_, ?_⟩
    · exact hcarrying.trans (congrArg Host.Outcome.next halone)
    · exact hexec.trans (congrArg Host.Outcome.next hamid)

end Sys2Proof.Machine
end

section
/-! PROOFS. Commands judged: QUERY_ITEM, SET_GLOBAL, GET_GLOBAL, and the refusals (sections 3.10, 10.5 to 10.8). -/

namespace Sys2Proof.Machine

/-! ### QUERY_ITEM (R58) -/

theorem exec_queryItem (s : State) : exec .queryItem s = complete 0x22 judgeQueryItem s := rfl

theorem judgeQueryItem_outOfRange {s : State} (ho : s.control.op ≠ .setup)
    (hp : s.host.copy[0] = 0 ∨ 3 < s.host.copy[1].toNat ∨ 1 < s.host.copy[2].toNat) :
    judgeQueryItem s = .refuse .badParam s := by
  by_cases htag : s.host.copy[0] = 0 ∨ 3 < s.host.copy[1].toNat
  · simp only [judgeQueryItem, outsideSetup_of_ne_setup _ ho, tagLaneOf_eq_none htag]
  · obtain ⟨hzero, hlane⟩ := not_or.1 htag
    obtain ⟨l, -, hwords⟩ := tagLaneOf_of_inRange hzero (not_lt.1 hlane)
    have hpart : wholeBelow 2 s.host.copy[2] = none :=
      wholeBelow_eq_none ((hp.resolve_left hzero).resolve_left hlane)
    simp only [judgeQueryItem, outsideSetup_of_ne_setup _ ho, hwords, hpart]

theorem judgeQueryItem_notFound {s : State} (ho : s.control.op ≠ .setup) (htag : s.host.copy[0] ≠ 0)
    (hlane : s.host.copy[1].toNat ≤ 3) (hpart : s.host.copy[2].toNat ≤ 1)
    (hn : s.NamesNone s.host.copy[0] s.host.copy[1]) : judgeQueryItem s = .refuse .notFound s := by
  obtain ⟨l, hl, hwords⟩ := tagLaneOf_of_inRange htag hlane
  have hwhole : wholeBelow 2 s.host.copy[2] = some ⟨_, Nat.lt_succ_of_le hpart⟩ := wholeBelow_eq_some rfl
  simp only [judgeQueryItem, outsideSetup_of_ne_setup _ ho, hwords, hwhole, findInLane_eq_none hl hn]

theorem exec_queryItem_of_names {s : State} {i : Item} {part : Fin 2} (h : s.Awaits 0x22) (ho : s.control.op ≠ .setup)
    (htag : s.host.copy[0] ≠ 0) (hn : s.Names i s.host.copy[0] s.host.copy[1]) (hpart : part.val = s.host.copy[2].toNat) :
    exec .queryItem s = .next (s.completed .done (i.queryWords part)) := by
  obtain ⟨l, hl, hwords⟩ := tagLaneOf_of_inRange htag (lane_le_of_names hn)
  have hj : judgeQueryItem s = .done (i.queryWords part) s := by
    simp only [judgeQueryItem, outsideSetup_of_ne_setup _ ho, hwords, wholeBelow_eq_some hpart,
      (findInLane_eq_some_iff hl i).2 hn]
  rw [exec_queryItem, complete_done h hj rfl]

theorem flagsWord_bits (i : Item) :
    i.flagsWord.getLsbD 0 = i.short ∧ i.flagsWord.getLsbD 1 = i.long ∧ i.flagsWord.getLsbD 2 = i.noTrailing
    ∧ i.flagsWord.getLsbD 3 = i.missed ∧ i.flagsWord.getLsbD 4 = i.confirmFail ∧ i.flagsWord.getLsbD 5 = i.final
    ∧ i.flagsWord.getLsbD 6 = i.trailing.isSome ∧ i.flagsWord.extractLsb' 7 9 = 0 := by
  refine ⟨?_, ?_, ?_, ?_, ?_, ?_, ?_, ?_⟩
  case refine_8 => simp [Item.flagsWord, BitVec.extractLsb'_or, extractLsb'_flagBit_outside]
  all_goals simp [-BitVec.getLsbD_eq_getElem, Item.flagsWord, getLsbD_flagBit]

/-- Settles O47. -/
theorem queryReadsTheItem : Obligations.QueryReadsTheItem := by
  refine fun s h => ⟨fun ho => ?_, fun ho hp => ?_, fun ho htag hlane hpart hn => ?_, fun i ho htag hn hpart => ?_,
    fun i ho htag hn hpart => ?_⟩
  · exact complete_refuse h (outsideSetup_setup _ ho)
  · exact complete_refuse h (judgeQueryItem_outOfRange ho hp)
  · exact complete_refuse h (judgeQueryItem_notFound ho htag hlane hpart hn)
  · exact ⟨_, exec_queryItem_of_names (part := 0) h ho htag hn (by rw [hpart]; rfl), joinWords_lo_hi _, joinWords_lo_hi _,
      joinWords_lo_hi _⟩
  · exact ⟨_, exec_queryItem_of_names (part := 1) h ho htag hn (by rw [hpart]; rfl), rfl, rfl, rfl, rfl, rfl, flagsWord_bits i⟩

/-! ### SET_GLOBAL and GET_GLOBAL (R178, R179) -/

theorem exec_setGlobal (s : State) : exec .setGlobal s = complete 0x01 judgeSetGlobal s := rfl

theorem encoderModeOf_of_le {b : BitVec 2} (h : b.toNat ≤ 1) :
    encoderModeOf b.toNat = some (if b = 0 then .quad else .pulseDir) := by
  revert b
  decide

theorem encoderModeOf_eq_none {n : Nat} (h : 1 < n) : encoderModeOf n = none := by
  unfold encoderModeOf
  split
  · omega
  · omega
  · rfl

theorem globalOf_inRange {p : Vector Word 8} (h : GlobalInRange p) :
    globalOf p = some { tickDiv := p[0].extractLsb' 0 8
                        mode := if p[1].extractLsb' 0 2 = 0 then .quad else .pulseDir
                        invert := p[1].getLsbD 2, haltOnFail := p[1].getLsbD 3, tolerance := p[2]
                        mask := p[3].extractLsb' 0 9 } := by
  obtain ⟨hzero, hdiv, hmode, hmask⟩ := h
  rw [globalOf, encoderModeOf_of_le hmode]
  exact if_neg (by rintro (h0 | h255 | hm); exacts [hzero h0, absurd h255 (not_lt.2 hdiv), hm hmask])

theorem globalOf_outOfRange {p : Vector Word 8} (h : ¬ GlobalInRange p) : globalOf p = none := by
  by_cases hmode : (p[1].extractLsb' 0 2).toNat ≤ 1
  · rw [globalOf, encoderModeOf_of_le hmode]
    refine if_pos (by_contra fun hnot => h ?_)
    simp only [not_or, not_lt, not_not, ne_eq] at hnot
    obtain ⟨hzero, hdiv, hmask⟩ := hnot
    exact ⟨hzero, hdiv, hmode, hmask⟩
  · rw [globalOf, encoderModeOf_eq_none (not_le.1 hmode)]

theorem globalFlags_fields (s : State) :
    (globalFlags s).extractLsb' 0 2 = BitVec.ofNat 2 s.position.mode.code ∧ (globalFlags s).getLsbD 2 = s.position.invert
    ∧ (globalFlags s).getLsbD 3 = s.globals.haltOnFail ∧ (globalFlags s).extractLsb' 4 12 = 0 := by
  have hcode : s.position.mode.code < 2 ^ 2 := by cases s.position.mode <;> decide
  have hbit2 : s.position.mode.code.testBit 2 = false := Nat.testBit_lt_two_pow hcode
  have hbit3 : s.position.mode.code.testBit 3 = false := Nat.testBit_lt_two_pow (hcode.trans (by decide))
  refine ⟨?_, ?_, ?_, ?_⟩
  · simp [globalFlags, BitVec.extractLsb'_or, extractLsb'_flagBit_outside, extractLsb'_fieldAt_same]
  · simp [-BitVec.getLsbD_eq_getElem, globalFlags, getLsbD_flagBit, getLsbD_fieldAt, hbit2]
  · simp [-BitVec.getLsbD_eq_getElem, globalFlags, getLsbD_flagBit, getLsbD_fieldAt, hbit3]
  · simp [globalFlags, BitVec.extractLsb'_or, extractLsb'_flagBit_outside, extractLsb'_fieldAt_above _ hcode]

/-- Settles O35. -/
theorem globalSettings : Obligations.GlobalSettings := by
  unfold Obligations.GlobalSettings
  refine ⟨fun s h ho => ⟨fun hp => ?_, fun hp => ?_⟩, fun s h => ?_⟩
  · refine complete_refuse h ?_
    rw [judgeSetGlobal, inSetup_setup _ ho, globalOf_outOfRange hp]
  · have hj : ∃ g, globalOf s.host.copy = some g ∧ judgeSetGlobal s = .done noWords (s.writeGlobals g) := by
      refine ⟨_, globalOf_inRange hp, ?_⟩
      rw [judgeSetGlobal, inSetup_setup _ ho, globalOf_inRange hp]
    obtain ⟨g, hg, hj⟩ := hj
    obtain rfl := Option.some.inj ((globalOf_inRange hp).symm.trans hg)
    rw [exec_setGlobal, complete_done h hj rfl, State.writeGlobals]
    simp only [beq_iff_eq]
  · obtain ⟨hmode, hinvert, hhalt, hrest⟩ := globalFlags_fields s
    refine ⟨_, complete_done h (judge := judgeGetGlobal) rfl rfl, rfl, rfl, rfl, rfl, rfl, ?_, ?_, hinvert, hhalt, hrest⟩
    · refine (iff_of_eq (congrArg (· = 0) hmode)).trans ?_
      cases s.position.mode <;> decide
    · refine (iff_of_eq (congrArg (· = 1) hmode)).trans ?_
      cases s.position.mode <;> decide

/-! ### Refusals (R172, R177) -/

theorem awaits_lastCode {s : State} {code : BitVec 8} (h : s.Awaits code) : s.host.lastCode = code := by
  obtain ⟨-, -, hcode⟩ := h
  exact hcode

theorem commandCodes_contains_iff (code : BitVec 8) : commandCodes.contains code = true ↔
    code.toNat ∈ [0x01, 0x02, 0x03, 0x04, 0x05, 0x06, 0x07, 0x08, 0x09, 0x10, 0x11, 0x12, 0x13, 0x20, 0x21, 0x22, 0x23,
      0x24, 0x25, 0x2F] := by
  simp [commandCodes, BitVec.toNat_eq]

theorem judgeResume_of_ne_halted {s : State} (ho : s.control.op ≠ .halted) : judgeResume s = .refuse .badState s := by
  unfold judgeResume
  cases hop : s.control.op with
  | setup => rfl
  | tracking => rfl
  | halted => exact absurd hop ho

/-- Settles O34. -/
theorem refusalsChangeNothing : Obligations.RefusalsChangeNothing := by
  refine fun s => ⟨fun code h hcode => ?_, fun c code h ho hc => ?_, fun c code h ho hc => ?_, fun h ho => ?_, fun h ho => ?_⟩
  · have hunknown : ¬ commandCodes.contains s.host.lastCode = true := by
      rwa [commandCodes_contains_iff, awaits_lastCode h]
    change execUnknownCommand s = _
    rw [execUnknownCommand, if_neg hunknown, awaits_lastCode h]
    exact complete_refuse h rfl
  · simp only [List.mem_cons, Prod.mk.injEq, List.not_mem_nil, or_false] at hc
    obtain ⟨rfl, rfl⟩ | ⟨rfl, rfl⟩ | ⟨rfl, rfl⟩ | ⟨rfl, rfl⟩ | ⟨rfl, rfl⟩ | ⟨rfl, rfl⟩ | ⟨rfl, rfl⟩ := hc
    all_goals exact complete_inSetup_badState _ h ho
  · have hnotTracking : s.control.op ≠ .tracking := by simp [ho]
    have hnotHalted : s.control.op ≠ .halted := by simp [ho]
    simp only [List.mem_cons, Prod.mk.injEq, List.not_mem_nil, or_false] at hc
    obtain ⟨rfl, rfl⟩ | ⟨rfl, rfl⟩ | ⟨rfl, rfl⟩ | ⟨rfl, rfl⟩ | ⟨rfl, rfl⟩ | ⟨rfl, rfl⟩ := hc
    · exact complete_refuse h (judgeStop_setup ho)
    · exact complete_refuse h (judgeHalt_of_ne_tracking hnotTracking)
    · exact complete_refuse h (judgeResume_of_ne_halted hnotHalted)
    · exact complete_refuse h (outsideSetup_setup _ ho)
    · exact complete_refuse h (outsideSetup_setup _ ho)
    · exact complete_refuse h (outsideSetup_setup _ ho)
  · exact complete_refuse h (judgeHalt_of_ne_tracking (by rw [ho]; decide))
  · exact complete_refuse h (judgeResume_of_ne_halted (by rw [ho]; decide))

end Sys2Proof.Machine
end

section
/-! PROOFS. The catch-up of a RESUME, and RESUME whole (sections 4.7 and 8.5). -/

namespace Sys2Proof.Machine

/-! ### The catch-up does not read the list -/

theorem arrive_left (s : State) (es : List Entry) (r : EventRecord) : (s.left es).arrive r = (s.arrive r).left es := by
  rw [arrive_eq, arrive_eq]
  rfl

theorem closeVerdict_left (s : State) (es : List Entry) (i : Item) :
    (s.left es).closeVerdict i = (s.closeVerdict i).left es := by
  by_cases h : i.verdict = .undecided
  · rw [closeVerdict_undecided (s := s.left es) h, closeVerdict_undecided h, ← arrive_left]
    rfl
  · rw [closeVerdict_decided (s := s.left es) h, closeVerdict_decided h]
    rfl

theorem fireDeadline_left (s : State) (es : List Entry) (tag : Tag) :
    (s.left es).fireDeadline tag = (s.fireDeadline tag).left es := by
  have hfind : (s.left es).findItem tag = s.findItem tag := rfl
  unfold State.fireDeadline
  rw [hfind]
  split
  · rfl
  · split
    · rfl
    · exact closeVerdict_left ..

theorem missAction_left (s : State) (es : List Entry) (n : StationId) (tag : Tag) :
    (s.left es).missAction n tag = (s.missAction n tag).left es :=
  arrive_left (s.updItem tag fun i => { i with missed := true }) es _

/-- The mark of an entry of the tag cleared. -/
def Entry.freed (tag : Tag) (x : Entry) : Entry := if x.tag = tag then x.unmark else x

theorem retireItem_left (s : State) (es : List Entry) (tag : Tag) : (s.left es).retireItem tag
    = (s.retireItem tag).left (if (s.findItem tag).isSome then es.map (Entry.freed tag) else es) := by
  cases hf : s.findItem tag with
  | none =>
    rw [retireItem_none (s := s.left es) hf, retireItem_none hf]
    rfl
  | some i =>
    obtain ⟨-, rfl⟩ := findItem_some hf
    rw [retireItem_eq (s := s.left es) hf, retireItem_eq hf, ← arrive_left]
    refine congrArg (State.arrive · _) ?_
    split
    · exact arrive_left ((s.updLane i.lane (Lane.retireDefaulted _ (s.linked i.lane i.tag))).freeItem i.tag)
        (es.map (Entry.freed i.tag)) _
    · rfl

/-- What the taking of an entry in the catch-up does to the others: a retired item's OFF entries lose their marks (R73). -/
def State.catchMark (s : State) (e x : Entry) : Entry :=
  if e.kind = .retire ∧ (s.findItem e.tag).isSome then x.freed e.tag else x

theorem catchEntry_left (s : State) (es : List Entry) (e : Entry) :
    (s.left es).catchEntry e = (s.catchEntry e).left (es.map (s.catchMark e)) := by
  have hkeep (h : e.kind ≠ .retire) : es.map (s.catchMark e) = es :=
    (List.map_congr_left fun x _ => if_neg fun hr => h hr.1).trans (List.map_id es)
  unfold State.catchEntry
  split
  next hk =>
    rw [hkeep (by simp [hk])]
  next hk =>
    rw [hkeep (by simp [hk])]
    exact fireDeadline_left ..
  next hk =>
    rw [hkeep (by simp [hk])]
    exact missAction_left ..
  next hk =>
    rw [retireItem_left]
    refine congrArg (State.left _) ?_
    cases hf : s.findItem e.tag with
    | none => exact ((List.map_congr_left fun x _ => if_neg (by simp [hf])).trans (List.map_id es)).symm
    | some i => exact (List.map_congr_left fun x _ => if_pos (by simp [hf, hk])).symm

theorem catchMark_or (s : State) (e x : Entry) : s.catchMark e x = x ∨ s.catchMark e x = x.unmark := by
  unfold State.catchMark Entry.freed
  split
  · split
    · exact .inr rfl
    · exact .inl rfl
  · exact .inl rfl

@[simp] theorem catchMark_reached (s : State) (e x : Entry) : (s.catchMark e x).reached = x.reached := by
  obtain h | h := catchMark_or s e x
  · rw [h]
  · rw [h, unmark_reached]

@[simp] theorem catchMark_isOn (s : State) (e x : Entry) : (s.catchMark e x).isOn = x.isOn := by
  obtain h | h := catchMark_or s e x
  · rw [h]
  · rw [h, unmark_isOn]

/-- A mark makes no difference to an entry taken in the catch-up. -/
theorem catchEntry_unmark (t : State) (x : Entry) : t.catchEntry x.unmark = t.catchEntry x := by
  cases x with
  | mk kind => cases kind <;> rfl

theorem catchEntry_catchMark (s t : State) (e x : Entry) : t.catchEntry (s.catchMark e x) = t.catchEntry x := by
  obtain h | h := catchMark_or s e x
  · rw [h]
  · rw [h, catchEntry_unmark]

/-- What the catch-up leaves alone. -/
structure State.Kept (s t : State) : Prop where
  control : t.control = s.control
  position : t.position = s.position
  outputs : t.outputs = s.outputs

theorem Notes.kept {s t : State} (h : Notes s t) : s.Kept t := by
  obtain ⟨-, hcontrol, -, hposition⟩ := h.parts
  exact ⟨hcontrol, hposition, h.frame.outputs⟩

theorem catchEntry_kept (s : State) (e : Entry) : s.Kept (s.catchEntry e) := by
  unfold State.catchEntry
  split
  · exact ⟨rfl, rfl, rfl⟩
  · exact (notes_fireDeadline ..).kept
  · exact (notes_missAction ..).kept
  · cases hf : s.findItem e.tag with
    | none =>
      rw [retireItem_none hf]
      exact ⟨rfl, rfl, rfl⟩
    | some i =>
      rw [retireItem_some hf]
      exact ⟨(notes_noteRetired s i).kept.1, (notes_noteRetired s i).kept.2, (notes_noteRetired s i).kept.3⟩

/-! ### The catch-up, whole (R82) -/

/-- The state once the reached entries have left the list, and those of `es` are taken. -/
def State.taken (s : State) (es : List Entry) : State := es.foldl State.catchEntry s

/-- A mark that makes no difference may as well stand on the entries that are taken. -/
theorem taken_map {f : Entry → Entry} (hf : ∀ (t : State) (x : Entry), t.catchEntry (f x) = t.catchEntry x) (s : State)
    (es : List Entry) : s.taken (es.map f) = s.taken es := by
  induction es generalizing s with
  | nil => rfl
  | cons e es ih =>
    rw [State.taken, List.map_cons, List.foldl_cons, hf]
    exact ih _

theorem taken_cons (s : State) (kept : List Entry) (e : Entry) (es : List Entry) :
    (s.left kept).taken (e :: es) = ((s.catchEntry e).left (kept.map (s.catchMark e))).taken es := by
  rw [State.taken, List.foldl_cons, catchEntry_left]
  rfl

theorem takeFirst_filter {p : Entry → Bool} {es : List Entry} {e : Entry} {rest : List Entry}
    (h : takeFirst p es = some (e, rest)) :
    es.filter p = e :: rest.filter p ∧ es.filter (fun x => !p x) = rest.filter fun x => !p x := by
  obtain ⟨before, after, rfl, rfl, he, hbefore⟩ := takeFirst_some h
  have hnone : before.filter p = [] := List.filter_eq_nil_iff.2 fun x hx => by simp [hbefore x hx]
  simp [hnone, he]

theorem filter_catchMark {p : Entry → Bool} {s : State} {e : Entry} (h : ∀ x, p (s.catchMark e x) = p x)
    (es : List Entry) : (es.map (s.catchMark e)).filter p = (es.filter p).map (s.catchMark e) := by
  rw [List.filter_map]
  exact congrArg _ (List.filter_congr fun x _ => h x)

/-- The catch-up loop with its two counts; with no reached entry it does nothing. -/
def State.caughtAll (s : State) (taken missed : Nat) : State × Nat × Nat :=
  ((s.left (s.list.entries.filter fun e => !e.reached)).taken (s.list.entries.filter fun e => e.reached),
    taken + s.list.entries.countP (fun e => e.reached),
    missed + s.list.entries.countP (fun e => e.reached && e.isOn))

theorem caughtAll_none {s : State} (h : ∀ e ∈ s.list.entries, e.reached = false) (taken missed : Nat) :
    s.caughtAll taken missed = (s, taken, missed) := by
  have hreached : s.list.entries.filter (fun e => e.reached) = [] := List.filter_eq_nil_iff.2 fun e he => by simp [h e he]
  have hkept : s.list.entries.filter (fun e => !e.reached) = s.list.entries :=
    List.filter_eq_self.2 fun e he => by simp [h e he]
  have htaken : s.list.entries.countP (fun e => e.reached) = 0 := List.countP_eq_zero.2 fun e he => by simp [h e he]
  have hmissed : s.list.entries.countP (fun e => e.reached && e.isOn) = 0 :=
    List.countP_eq_zero.2 fun e he => by simp [h e he]
  rw [State.caughtAll, hreached, hkept, htaken, hmissed]
  rfl

theorem caughtAll_some {s : State} {e : Entry} {rest : List Entry}
    (h : takeFirst (fun e => e.reached) s.list.entries = some (e, rest)) (taken missed : Nat) :
    s.caughtAll taken missed
      = ((s.left rest).catchEntry e).caughtAll (taken + 1) (if e.isOn then missed + 1 else missed) := by
  obtain ⟨-, -, -, -, he, -⟩ := takeFirst_some h
  obtain ⟨hreached, hkept⟩ := takeFirst_filter h
  have hcount (p : Entry → Bool) (hp : ∀ x, p (s.catchMark e x) = p x) :
      s.list.entries.countP p = (rest.map (s.catchMark e)).countP p + (if p e then 1 else 0) := by
    have hmap : (rest.map (s.catchMark e)).countP p = rest.countP p :=
      List.countP_map.trans (List.countP_congr fun x _ => by rw [Function.comp_apply, hp])
    rw [(takeFirst_perm h).countP_eq, List.countP_cons, hmap]
  rw [catchEntry_left, State.caughtAll, State.caughtAll, hreached, hkept, taken_cons, hcount (fun x => x.reached) (catchMark_reached s e),
    hcount (fun x => x.reached && x.isOn) fun x => by rw [catchMark_reached, catchMark_isOn]]
  refine Prod.ext ?_ (Prod.ext ?_ ?_)
  · change _ = (State.left _ ((rest.map (s.catchMark e)).filter _)).taken ((rest.map (s.catchMark e)).filter _)
    rw [filter_catchMark (catchMark_reached s e), filter_catchMark fun x => by rw [catchMark_reached],
      taken_map (catchEntry_catchMark s · e ·)]
    rfl
  · change taken + (_ + _) = taken + 1 + List.countP _ (rest.map (s.catchMark e))
    rw [if_pos he]
    omega
  · change missed + (_ + _) = (if e.isOn then missed + 1 else missed) + List.countP _ (rest.map (s.catchMark e))
    simp only [he, Bool.true_and]
    split <;> omega

theorem catchUpLoop_eq (fuel taken missed : Nat) (s : State) (hfuel : s.list.entries.length ≤ fuel) :
    State.catchUpLoop fuel taken missed s = s.caughtAll taken missed := by
  induction fuel generalizing taken missed s with
  | zero =>
    have hnil : s.list.entries = [] := List.length_eq_zero_iff.1 (Nat.le_zero.1 hfuel)
    exact (caughtAll_none (by simp [hnil]) ..).symm
  | succ fuel ih =>
    simp only [State.catchUpLoop]
    split
    next hnone => exact (caughtAll_none (takeFirst_none.1 hnone) ..).symm
    next e rest hsome =>
      have hlength := takeFirst_length hsome
      rw [caughtAll_some hsome]
      refine ih _ _ _ ((catchEntry_entries_le _ e).trans ?_)
      change rest.length ≤ fuel
      omega

theorem taken_kept (s : State) (es : List Entry) : s.Kept (s.taken es) :=
  foldl_induction (P := s.Kept) (fun t e h => ⟨(catchEntry_kept t e).1.trans h.1, (catchEntry_kept t e).2.trans h.2,
    (catchEntry_kept t e).3.trans h.3⟩) es ⟨rfl, rfl, rfl⟩

theorem caughtUp_kept (s : State) : s.Kept s.caughtUp := by
  have h := taken_kept (s.left (s.list.entries.filter fun e => !e.reached)) (s.list.entries.filter fun e => e.reached)
  exact ⟨h.1, h.2, h.3⟩

theorem catchUp_eq (s : State) : s.catchUp = (s.caughtUp, s.list.entries.countP (fun e => e.reached),
    s.list.entries.countP fun e => e.reached && e.isOn) := by
  have hposition : (s.caughtAll 0 0).1.position = s.position :=
    (taken_kept (s.left (s.list.entries.filter fun e => !e.reached)) (s.list.entries.filter fun e => e.reached)).position
  have hcaught : (s.caughtAll 0 0).1.settleFiringPoint = s.caughtUp :=
    congrArg (fun p => { (s.caughtAll 0 0).1 with list := { (s.caughtAll 0 0).1.list with firingPoint := p.tracking } }) hposition
  rw [State.catchUp, catchUpLoop_eq _ _ _ _ (le_refl _)]
  exact Prod.ext hcaught (Prod.ext (Nat.zero_add _) (Nat.zero_add _))

/-! #### What the catch-up does to a lane -/

/-- A change of a lane that leaves its configuration alone, and its detector but perhaps for its link. -/
def Lane.Unlinks (f : Lane → Lane) : Prop :=
  ∀ x : Lane, (f x).config = x.config ∧ ((f x).detector = x.detector ∨ (f x).detector = x.detector.unlink)

theorem laneSettled_arrive {s : State} {r : EventRecord} {l : LaneId} : (s.arrive r).LaneSettled l ↔ s.LaneSettled l := by
  rw [arrive_eq]
  rfl

theorem laneSettled_updLane {s : State} {m : LaneId} {f : Lane → Lane} (hf : Lane.Unlinks f) {l : LaneId}
    (h : s.LaneSettled l) : (s.updLane m f).LaneSettled l := by
  have hconfig : (upd s.lanes m f)[l].config = s.lanes[l].config := upd_get_proj m l Lane.config (hf _).1
  have hactive : (s.updLane m f).inputActive l = s.inputActive l :=
    congrArg (fun c : LaneConfig => s.pins.det[l] != c.activeLow) hconfig
  have hdetector : (upd s.lanes m f)[l].detector = s.lanes[l].detector
      ∨ (upd s.lanes m f)[l].detector = s.lanes[l].detector.unlink := by
    rw [upd_get]
    split
    next heq =>
      rw [heq]
      exact (hf _).2
    next => exact .inl rfl
  have hkeep : (s.updLane m f).lanes[l].detector = s.lanes[l].detector := by
    obtain hd | hd := hdetector
    · exact hd
    · refine (Eq.trans hd ?_ : (upd s.lanes m f)[l].detector = _)
      obtain hl | ⟨hl, -⟩ | ⟨hl, -⟩ := h <;> rw [hl] <;> rfl
  unfold State.LaneSettled
  rwa [hkeep, hactive]

theorem unlinks_count (n : CounterName) : Lane.Unlinks fun x => { x with counters := x.counters.bump n } :=
  fun _ => ⟨rfl, .inl rfl⟩

theorem unlinks_retireDefaulted (defaulted linked : Bool) : Lane.Unlinks (Lane.retireDefaulted defaulted linked) := by
  intro x
  refine ⟨rfl, ?_⟩
  cases linked with
  | false => exact .inl rfl
  | true => exact .inr rfl

/-- A lane with nothing to do at a re-sampling still has nothing to do after the catch-up. -/
theorem laneSettled_catchEntry {s : State} {l : LaneId} (e : Entry) (h : s.LaneSettled l) : (s.catchEntry e).LaneSettled l := by
  unfold State.catchEntry
  split
  · exact h
  · unfold State.fireDeadline
    split
    · exact h
    · split
      · exact h
      next i _ _ =>
        by_cases hv : i.verdict = .undecided
        · rw [closeVerdict_undecided hv, laneSettled_arrive]
          exact laneSettled_updLane (unlinks_count _) (s := s.updItem i.tag _) h
        · rw [closeVerdict_decided hv]
          exact h
  · exact laneSettled_arrive.2 h
  · cases hf : s.findItem e.tag with
    | none => rwa [retireItem_none hf]
    | some i =>
      obtain ⟨-, htag⟩ := findItem_some hf
      rw [← htag] at hf ⊢
      rw [retireItem_eq hf, laneSettled_arrive]
      have hlane := laneSettled_updLane (m := i.lane)
        (unlinks_retireDefaulted (!i.final && i.verdict == .undecided) (s.linked i.lane i.tag)) h
      split
      · exact laneSettled_arrive.2 hlane
      · exact hlane

theorem laneSettled_caughtUp {s : State} {l : LaneId} (h : s.LaneSettled l) : s.caughtUp.LaneSettled l := by
  have htaken (es : List Entry) {t : State} (ht : t.LaneSettled l) : (t.taken es).LaneSettled l :=
    foldl_induction (P := fun t => t.LaneSettled l) (fun _ e h => laneSettled_catchEntry e h) es ht
  exact htaken (s.list.entries.filter fun e => e.reached) (t := s.left (s.list.entries.filter fun e => !e.reached)) h

theorem caughtUp_unreached (s : State) : ∀ e ∈ s.caughtUp.list.entries, e.reached = false := by
  have hall := catchUpLoop_unreached s.list.entries.length 0 0 s (le_refl _)
  rw [catchUpLoop_eq _ _ _ _ (le_refl _)] at hall
  simp only [List.all_eq_true, Bool.not_eq_true'] at hall
  exact hall

/-! ### Back in TRACKING (R146) -/

/-- The part back in TRACKING, before it looks at the lanes and the belt. -/
def State.reopened (s : State) : State :=
  State.arrive
    { s.caughtUp with
      control := { s.control with op := .tracking, firstCause := none, causeMask := 0 }
      outputs := mapAll (fun x => { x with held := none }) s.outputs }
    (s.recordNow .resumed 0 0 (BitVec.ofNat 16 (s.list.entries.countP (fun e => e.reached)))
      (BitVec.ofNat 16 (s.list.entries.countP (fun e => e.reached && e.isOn))))

theorem arrive_enterTracking (s : State) (r : EventRecord) : (s.arrive r).enterTracking = s.enterTracking.arrive r := by
  rw [arrive_eq, arrive_eq]
  rfl

theorem reopened_eq (s : State) : (s.caughtUp.reportResumed (s.list.entries.countP (fun e => e.reached))
    (s.list.entries.countP fun e => e.reached && e.isOn)).enterTracking = s.reopened := by
  obtain ⟨hcontrol, hposition, houtputs⟩ := caughtUp_kept s
  rw [State.reportResumed, State.report, arrive_enterTracking]
  refine congrArg₂ State.arrive ?_ (congrArg (fun p : PositionUnit => EventRecord.mk _ _ _ _ p.tracking _ _) hposition)
  rw [State.enterTracking]
  dsimp only
  rw [hcontrol, houtputs]

theorem resumeRun_eq (s : State) : ∃ t, t = s.reopened.resumeSampling.resumeOverReverse
    ∧ s.resumeRun = .done #v[BitVec.ofNat 16 (s.list.entries.countP (fun e => e.reached)),
        BitVec.ofNat 16 (s.list.entries.countP (fun e => e.reached && e.isOn)), t.control.op.code, 0, 0, 0] t := by
  refine ⟨_, rfl, ?_⟩
  rw [State.resumeRun, catchUp_eq]
  dsimp only
  rw [reopened_eq]
  rfl

theorem reopened_parts (s : State) : s.reopened.position = s.position
    ∧ s.reopened.control = { s.control with op := .tracking, firstCause := none, causeMask := 0 }
    ∧ s.reopened.list = s.caughtUp.list := by
  have hposition := (caughtUp_kept s).position
  rw [State.reopened, arrive_eq]
  exact ⟨hposition, rfl, rfl⟩

theorem laneSettled_reopened {s : State} {l : LaneId} (h : s.LaneSettled l) : s.reopened.LaneSettled l :=
  laneSettled_arrive.2 (laneSettled_caughtUp h)

theorem reverse_of_position {s t : State} (h : t.position = s.position) : t.reverse = s.reverse := by
  rw [State.reverse, State.reverse, h]

/-- A part that is out of SETUP at a belt position, with its firing point there and no entry reached. -/
structure State.Afoot (s : State) (p : PositionUnit) : Prop where
  state : s.control.op ≠ .setup
  position : s.position = p
  firingPoint : s.list.firingPoint = p.tracking
  unreached : ∀ e ∈ s.list.entries, e.reached = false

theorem afoot_reopened (s : State) : s.reopened.Afoot s.position := by
  obtain ⟨hposition, hcontrol, hlist⟩ := reopened_parts s
  refine ⟨by rw [hcontrol]; simp, hposition, by rw [hlist]; rfl, fun e he => ?_⟩
  rw [hlist] at he
  exact caughtUp_unreached s e he

theorem State.Afoot.takeHalt {s : State} {p : PositionUnit} (h : s.Afoot p) (c : Cause) : (s.takeHalt c).Afoot p := by
  have huntouched := takeHalt_untouched s c
  have hposition := huntouched.position.trans h.position
  refine ⟨op_ne_setup_takeHalt c h.state, hposition, ?_, fun e he => h.unreached e (huntouched.entries ▸ he)⟩
  rw [huntouched.firingPoint (by rw [h.firingPoint, h.position]), hposition]

theorem State.Afoot.settleHalts {s : State} {p : PositionUnit} (h : s.Afoot p) : s.settleHalts.Afoot p :=
  settleHalts_induction (P := (State.Afoot · p)) (fun _ _ h => ⟨h.1, h.2, h.3, h.4⟩)
    (fun t xs h => by rw [countChoice_eq]; exact ⟨h.1, h.2, h.3, h.4⟩) (fun _ c h => h.takeHalt c) h

theorem Work.unreached {w : Worker} {s t : State} (h : Work w s t) (ho : s.control.op = .tracking)
    (hs : ∀ e ∈ s.list.entries, e.reached = false) : ∀ e ∈ t.list.entries, e.reached = false := by
  intro x hx
  have hshape := h.reshaped
  revert hx
  generalize t.list.entries = es at hshape
  intro hx
  cases hshape with
  | pruned es f hsub hf =>
    obtain ⟨e, he, -, -, -, hreached, -⟩ := mem_pruned hf hx
    exact hreached.trans (hs e (hsub.subset he))
  | marked hhalted => exact nomatch ho.symm.trans hhalted
  | enrolled l pos tag hb hpos hq =>
    obtain hplan | hold := List.mem_append.1 ((enroll_perm s l pos tag).mem_iff.1 hx)
    · obtain rfl | ⟨-, rfl⟩ | ⟨n, -, -, rfl⟩ := mem_plan hplan <;> rfl
    · exact hs x hold
  | placed e rest n pos r i _ ht _ =>
    obtain rfl | hold := insertEntry_mem.1 hx
    · rfl
    · exact hs x (mem_of_mem_rest ht hold)
  | rekeyed tag pos hb =>
    obtain hold | ⟨e, he, -, rfl | ⟨c, rfl, -, -⟩⟩ := mem_rekey hx
    · exact hs x hold
    · exact (unmark_reached e).trans (hs e he)
    · exact (unmark_reached e).trans (hs e he)

theorem Works.afoot {w : Worker} {s t : State} {p : PositionUnit} (h : Works w s t) (ho : s.control.op = .tracking)
    (hs : s.Afoot p) : t.control.op = .tracking ∧ t.Afoot p := by
  refine h.induction (P := fun t => t.control.op = .tracking ∧ t.Afoot p) (fun u v hw ⟨hop, hu⟩ => ?_) ⟨ho, hs⟩
  have hop' : v.control.op = .tracking := hw.frame.op.trans hop
  exact ⟨hop', hop'.trans_ne (by simp), hw.frame.position.trans hu.position, hw.frame.firingPoint.trans hu.firingPoint,
    hw.unreached hop hu.unreached⟩

theorem settleHalts_requests (s : State) : s.settleHalts.control.requests = [] := takeRequests_empties _ s le_rfl

/-! #### The re-sampling of a RESUME -/

theorem resumeSampling_order {s : State} (hr : s.reverse = 0) : ∃ (order : List LaneId) (n : Nat),
    order.Perm [0, 1, 2, 3] ∧ s.resumeSampling = ((order.foldl State.laneResample s).chosen n).settleHalts := by
  obtain ⟨order, n, hperm, heq⟩ := resampleAll_order s
  exact ⟨order, n, hperm, by rw [State.resumeSampling, if_pos hr, heq]⟩

theorem State.Afoot.resampled {s : State} {p : PositionUnit} (h : s.Afoot p) (ho : s.control.op = .tracking)
    (order : List LaneId) (n : Nat) : ((order.foldl State.laneResample s).chosen n).Afoot p := by
  obtain ⟨-, h⟩ := foldl_induction (P := fun t => t.control.op = .tracking ∧ t.Afoot p)
    (fun t l ⟨hop, ht⟩ => (works_laneResample t l).afoot hop ht) order ⟨ho, h⟩
  exact ⟨h.1, h.2, h.3, h.4⟩

theorem resumeOverReverse_within {s : State} (h : s.reverse.toNat ≤ s.position.tolerance.toNat) :
    s.resumeOverReverse = s :=
  if_neg fun hover => absurd (of_decide_eq_true hover.2) (not_lt.2 h)

theorem resumeOverReverse_over {s : State} (ho : s.control.op = .tracking)
    (h : s.position.tolerance.toNat < s.reverse.toNat) : s.resumeOverReverse = s.takeHalt .overReverse :=
  if_pos ⟨ho, decide_eq_true h⟩

/-! #### RESUME whole -/

theorem judgeResume_halted {s : State} (ho : s.control.op = .halted) :
    judgeResume s = if s.control.hldAsserted then .refuse .haltActive s else s.resumeRun := by
  rw [judgeResume, ho]

/-- RESUME with HLD released: the part back in TRACKING, the re-sampling, the over-reverse check, and the answer. -/
theorem exec_resume {s t : State} (h : s.Awaits 0x13) (ho : s.control.op = .halted) (hhld : s.control.hldAsserted = false)
    (ht : t = s.reopened.resumeSampling.resumeOverReverse) (hr : t.control.requests = []) :
    exec .resume s = .next (t.completed .done #v[BitVec.ofNat 16 (s.list.entries.countP (fun e => e.reached)),
      BitVec.ofNat 16 (s.list.entries.countP (fun e => e.reached && e.isOn)), t.control.op.code, 0, 0, 0]) := by
  obtain ⟨_, rfl, hrun⟩ := resumeRun_eq s
  subst ht
  refine complete_done_of_noRequests h ?_ hr
  rw [judgeResume_halted ho, hhld, hrun]
  rfl

/-- Settles O43. -/
theorem resumeEntersTracking : Obligations.ResumeEntersTracking := by
  intro s h ho
  obtain ⟨hposition, hcontrol, -⟩ := reopened_parts s
  have hop : s.reopened.control.op = .tracking := by rw [hcontrol]
  have hnone : s.reopened.control.requests = [] := by rw [hcontrol]; exact awaits_requests h
  have hreverse : s.reopened.reverse = s.reverse := reverse_of_position hposition
  have hwithin (hr : s.reverse.toNat ≤ s.position.tolerance.toNat) : s.reopened.resumeOverReverse = s.reopened :=
    resumeOverReverse_within (by rwa [hreverse, hposition])
  refine ⟨fun hhld => complete_refuse h (by rw [judgeResume_halted ho, hhld]; rfl), fun hhld =>
    ⟨fun hr hsettled => ?_, fun hr => ?_, fun hne hr => ?_, fun hr => ?_⟩⟩
  · have ht : s.reopened = s.reopened.resumeSampling.resumeOverReverse := by
      rw [State.resumeSampling, if_pos (hreverse.trans hr), resampleAll_settled fun l => laneSettled_reopened (hsettled l),
        settleHalts_none hnone, hwithin (by simp [hr])]
    refine (exec_resume h ho hhld ht hnone).trans ?_
    rw [hop]
    rfl
  · obtain ⟨order, n, hperm, heq⟩ := resumeSampling_order (hreverse.trans hr)
    have hafoot := ((afoot_reopened s).resampled hop order n).settleHalts
    have ht : ((order.foldl State.laneResample s.reopened).chosen n).settleHalts
        = s.reopened.resumeSampling.resumeOverReverse := by
      rw [heq, resumeOverReverse_within]
      rw [reverse_of_position hafoot.position, hr]
      exact Nat.zero_le _
    exact ⟨order, n, hperm, exec_resume h ho hhld ht (settleHalts_requests _)⟩
  · have ht : s.reopened = s.reopened.resumeSampling.resumeOverReverse := by
      rw [State.resumeSampling, if_neg (by rwa [hreverse]), hwithin hr]
    refine (exec_resume h ho hhld ht hnone).trans ?_
    rw [hop]
    rfl
  · have hne : s.reopened.reverse ≠ 0 := fun hzero => by rw [hreverse] at hzero; simp [hzero] at hr
    have ht : s.reopened.takeHalt .overReverse = s.reopened.resumeSampling.resumeOverReverse := by
      rw [State.resumeSampling, if_neg hne, resumeOverReverse_over hop (by rwa [hreverse, hposition])]
    have hcode : (s.reopened.takeHalt .overReverse).control.op.code = 2 := by
      rw [takeHalt_tracking _ hop, haltEntry_pieces]
      rfl
    refine (exec_resume h ho hhld ht ((takeHalt_requests ..).trans hnone)).trans ?_
    rw [hcode]
    rfl

/-- However a RESUME goes on from TRACKING, the part is afoot at its belt position, with no request on its way. -/
theorem resume_afoot {s : State} (hrequests : s.control.requests = []) : ∃ t,
    t = s.reopened.resumeSampling.resumeOverReverse ∧ t.control.requests = [] ∧ t.Afoot s.position := by
  obtain ⟨-, hcontrol, -⟩ := reopened_parts s
  have hsampled : s.reopened.resumeSampling.control.requests = [] ∧ s.reopened.resumeSampling.Afoot s.position := by
    by_cases hr : s.reopened.reverse = 0
    · obtain ⟨order, n, -, heq⟩ := resumeSampling_order hr
      rw [heq]
      exact ⟨settleHalts_requests _, ((afoot_reopened s).resampled (by rw [hcontrol]) order n).settleHalts⟩
    · rw [State.resumeSampling, if_neg hr]
      exact ⟨by rw [hcontrol]; exact hrequests, afoot_reopened s⟩
  obtain ⟨hnone, hafoot⟩ := hsampled
  refine ⟨_, rfl, ?_⟩
  unfold State.resumeOverReverse
  split
  · exact ⟨(takeHalt_requests ..).trans hnone, hafoot.takeHalt _⟩
  · exact ⟨hnone, hafoot⟩

/-- Settles O44. -/
theorem resumeCatchesUp : Obligations.ResumeCatchesUp := by
  refine ⟨fun s h ho hhld => ?_, fun s e => ⟨fun n hk => ?_, fun hk => ?_, fun hk => ?_, fun n r hk => ⟨?_, ?_⟩⟩⟩
  · obtain ⟨t, ht, hnone, hafoot⟩ := resume_afoot (s := s) (awaits_requests h)
    refine ⟨_, exec_resume h ho hhld ht hnone, hafoot.unreached, rfl, rfl, rfl, rfl, ?_, hafoot.position, hafoot.firingPoint⟩
    have hcode : (t.control.op = .tracking ∧ t.control.op.code = 1) ∨ (t.control.op = .halted ∧ t.control.op.code = 2) := by
      cases hop : t.control.op with
      | setup => exact absurd hop hafoot.state
      | tracking => exact .inl ⟨rfl, rfl⟩
      | halted => exact .inr ⟨rfl, rfl⟩
    exact hcode
  · rw [State.catchEntry, hk]
    rfl
  · rw [State.catchEntry, hk]
  · rw [State.catchEntry, hk]
  · rw [State.catchEntry, hk]
  · intro before after hentries
    obtain ⟨hfires, -⟩ := holdersEndOneByOne
    obtain ⟨-, hholders⟩ := hfires s e before after n r hentries hk
    exact hholders

end Sys2Proof.Machine
end

section
/-! PROOFS. The registers: writes, and what each register reads (sections 1.6, 10.2 and 10.3). -/

namespace Sys2Proof.Machine

/-! ### Writes (R160 to R162, R167, R168, R174) -/

theorem writeRegister_param (s : State) (k : Fin 8) (value : Word) :
    s.writeRegister (BitVec.ofNat 5 (8 + k.val)) value = s.writeParam k value := by
  fin_cases k <;> rfl

theorem writeRegister_ignored (s : State) (value : Word) {r : BitVec 5}
    (h : r.toNat ∈ [0, 1, 6, 7, 16, 17, 18, 19, 20, 21, 22, 25, 26, 27, 28, 29, 30, 31]) : s.writeRegister r value = s := by
  simp only [List.mem_cons, List.not_mem_nil, or_false] at h
  rcases h with h | h | h | h | h | h | h | h | h | h | h | h | h | h | h | h | h | h
  all_goals simp only [State.writeRegister, h]

/-- A write of a register in a part that runs, with no request on its way. -/
theorem exec_registerWrite_quiet {s : State} (h : s.Quiet) (r : BitVec 5) (value : Word)
    (hcontrol : (s.writeRegister r value).control = s.control) :
    exec (.registerWrite r value) s = .next (s.writeRegister r value) :=
  congrArg Host.Outcome.next (writeCycle_quiet h (congrArg Control.requests hcontrol))

theorem writeStatus_eq (s : State) (value : Word) :
    s.writeStatus value = { s with host := { s.host with powerOn := s.host.powerOn && !value.getLsbD 5 } } := by
  rw [State.writeStatus, bitAt]
  cases value.getLsbD 5 with
  | true => rw [Bool.not_true, Bool.and_false]; rfl
  | false => rw [Bool.not_false, Bool.and_true]; rfl

theorem heldThreshold_eq (value : Word) :
    heldThreshold value = BitVec.ofNat 6 (if value = 0 then 1 else min value.toNat 32) := by
  unfold heldThreshold
  split
  · rfl
  · split
    next h =>
      rw [min_eq_right (le_of_lt h)]
      rfl
    next h =>
      rw [min_eq_left (not_lt.1 h)]
      rfl

theorem writeThreshold_eq (s : State) (value : Word) : s.writeThreshold value
    = { s with
        events := { s.events with threshold := heldThreshold value }
        host := { s.host with intStatus := s.host.intStatus |||
          if s.events.records.length ≠ 0 ∧ (heldThreshold value).toNat ≤ s.events.records.length then 2 else 0 } } := by
  unfold State.writeThreshold
  dsimp only
  split
  · rfl
  · rw [show s.host.intStatus ||| 0 = s.host.intStatus from BitVec.or_zero]

/-- INT_N by the bits (R162). -/
theorem intNLow_iff {s : State} (hrun : s.running = true) :
    s.intNLow = true ↔ ∃ k, k < 4 ∧ s.host.intStatus.getLsbD k = true ∧ s.host.intEnable.getLsbD k = true := by
  rw [State.intNLow, hrun, Bool.true_and, bne_iff_ne]
  constructor
  · intro hne
    by_contra hnone
    refine hne (BitVec.eq_of_getLsbD_eq fun k hk => ?_)
    rw [BitVec.getLsbD_and, show (0 : BitVec 4).getLsbD k = false from BitVec.getLsbD_zero, Bool.and_eq_false_iff, ← Bool.not_eq_true, ← Bool.not_eq_true]
    exact not_and_or.1 fun hboth => hnone ⟨k, hk, hboth⟩
  · rintro ⟨k, -, hstatus, henable⟩ hzero
    have hbit := congrArg (BitVec.getLsbD · k) hzero
    simp [-BitVec.getLsbD_eq_getElem, hstatus, henable] at hbit

/-- Settles O32. -/
theorem registerWrites : Obligations.RegisterWrites := by
  unfold Obligations.RegisterWrites
  refine ⟨fun s value h => ⟨fun k => ?_, fun r hr => ?_⟩, fun s value h => ⟨?_, ?_, ?_, ?_⟩, fun s value h => ?_⟩
  · have hparam := writeRegister_param s k value
    rw [exec_registerWrite_quiet h _ _ (by rw [hparam]; rfl), hparam]
    rfl
  · have hignored := writeRegister_ignored s value hr
    rw [exec_registerWrite_quiet h _ _ (by rw [hignored]), hignored]
  · refine (congrArg Host.Outcome.next (writeCycle_quiet h ?_)).trans ?_
    · rw [writeStatus_eq]
    · rw [writeStatus_eq]
  · refine ⟨_, congrArg Host.Outcome.next (writeCycle_quiet h rfl), fun k hk => ?_, rfl⟩
    simp [-BitVec.getLsbD_eq_getElem, State.writeIntStatus, hk]
  · refine ⟨_, congrArg Host.Outcome.next (writeCycle_quiet h rfl), fun k hk => ?_, rfl⟩
    simp [-BitVec.getLsbD_eq_getElem, State.writeIntEnable, hk]
  · obtain ⟨hrun, -⟩ := h
    exact intNLow_iff hrun
  · dsimp only
    refine (congrArg Host.Outcome.next (writeCycle_quiet h ?_)).trans ?_
    · rw [writeThreshold_eq]
    · have hheld : (heldThreshold value).toNat = if value = 0 then 1 else min value.toNat 32 := by
        rw [heldThreshold_eq, BitVec.toNat_ofNat]
        refine Nat.mod_eq_of_lt ?_
        split <;> omega
      rw [writeThreshold_eq, hheld, heldThreshold_eq]
      simp only [ne_eq, List.length_eq_zero_iff]

/-! ### The packed registers (sections 10.3, R168, R169, R171) -/

theorem folded_lt (d : Detector) : d.folded < 2 ^ 2 := by cases d <;> simp [Detector.folded]

theorem opState_code_field (o : OpState) (start : Nat) (h : 2 ≤ start) (len : Nat) : o.code.extractLsb' start len = 0 := by
  refine BitVec.eq_of_getLsbD_eq fun k hk => ?_
  rw [BitVec.getLsbD_extractLsb', opState_code_bit_outside o (by omega), Bool.and_false]
  exact BitVec.getLsbD_zero.symm

theorem statusWord_op (s : State) : s.statusWord.extractLsb' 0 2 = s.control.op.code.extractLsb' 0 2 := by
  simp [State.statusWord, BitVec.extractLsb'_or, extractLsb'_flagBit_outside, extractLsb'_fieldAt_below]

theorem statusWord_bits (s : State) : s.statusWord.getLsbD 4 = s.control.hldAsserted
    ∧ s.statusWord.getLsbD 5 = s.host.powerOn ∧ s.statusWord.getLsbD 6 = s.blanked ∧ s.statusWord.getLsbD 7 = false := by
  refine ⟨?_, ?_, ?_, ?_⟩
  all_goals simp [State.statusWord, getLsbD_flagBit, getLsbD_fieldAt, opState_code_bit_outside, -BitVec.getLsbD_eq_getElem]

theorem statusWord_detector (s : State) (l : LaneId) :
    s.statusWord.extractLsb' (8 + 2 * l.val) 2 = BitVec.ofNat 2 s.lanes[l].detector.folded := by
  have habove (n start : Nat) (d : Detector) (h : n + 2 ≤ start) : (fieldAt n d.folded).extractLsb' start 2 = 0 :=
    extractLsb'_fieldAt_above 2 (folded_lt d) h
  fin_cases l
  all_goals simp [State.statusWord, BitVec.extractLsb'_or, extractLsb'_flagBit_outside, opState_code_field, habove,
    extractLsb'_fieldAt_same, extractLsb'_fieldAt_below]

theorem blanked_iff (s : State) : s.blanked = true
    ↔ s.control.op = .halted ∨ (s.control.op = .tracking ∧ s.position.counter ≠ s.position.tracking) := by
  unfold State.blanked
  cases s.control.op with
  | setup => simp
  | tracking =>
    simp only [State.reverse, bne_iff_ne, ne_eq, sub_eq_zero, reduceCtorEq, false_or, true_and]
    exact not_congr eq_comm
  | halted => simp

theorem firstCode_fields (c : Control) (start : Nat) (h : 4 ≤ start) (len : Nat) : c.firstCode.extractLsb' start len = 0 := by
  have hlt : c.firstCode.toNat < 2 ^ 4 := by
    unfold Control.firstCode
    cases c.firstCause with
    | none => decide
    | some cause => cases cause <;> decide
  refine BitVec.eq_of_getLsbD_eq fun k _ => ?_
  have hbit : c.firstCode.getLsbD (start + k) = false :=
    Nat.testBit_lt_two_pow (hlt.trans_le (Nat.pow_le_pow_right (by decide) (by omega)))
  rw [BitVec.getLsbD_extractLsb', hbit, Bool.and_false]
  exact BitVec.getLsbD_zero.symm

theorem haltCauseWord_fields (s : State) :
    s.haltCauseWord.extractLsb' 0 4 = s.control.firstCode.extractLsb' 0 4 ∧ s.haltCauseWord.extractLsb' 4 4 = 0
    ∧ s.haltCauseWord.extractLsb' 8 6 = s.control.causeMask ∧ s.haltCauseWord.extractLsb' 14 2 = 0 := by
  have habove : (fieldAt 8 s.control.causeMask.toNat).extractLsb' 14 2 = 0 :=
    extractLsb'_fieldAt_above 2 s.control.causeMask.isLt (by decide)
  refine ⟨?_, ?_, ?_, ?_⟩
  all_goals simp [State.haltCauseWord, BitVec.extractLsb'_or, firstCode_fields, habove, extractLsb'_fieldAt_same,
    extractLsb'_fieldAt_below]

theorem cmdWord_fields (s : State) : s.cmdWord.getLsbD 15 = s.host.busy ∧ s.cmdWord.extractLsb' 0 8 = s.host.lastCode
    ∧ s.cmdWord.extractLsb' 8 7 = 0 := by
  refine ⟨?_, ?_, ?_⟩
  · simp [State.cmdWord, getLsbD_flagBit, -BitVec.getLsbD_eq_getElem]
  · rw [State.cmdWord, BitVec.extractLsb'_or, extractLsb'_flagBit_outside _ (by decide)]
    refine BitVec.eq_of_getLsbD_eq fun k hk => ?_
    simp [-BitVec.getLsbD_eq_getElem, hk, hk.trans (by decide : 8 < 16)]
  · rw [State.cmdWord, BitVec.extractLsb'_or, extractLsb'_flagBit_outside _ (by decide)]
    refine BitVec.eq_of_getLsbD_eq fun k hk => ?_
    simp [-BitVec.getLsbD_eq_getElem]

/-! ### Reads (R12, R13, R159, R166 to R169) -/

theorem registerRead_stopped {s : State} (h : s.running = false) (r : BitVec 5) : s.registerRead r = 0 :=
  if_neg (by simp [h])

theorem registerRead_param {s : State} (h : s.running = true) (k : Fin 8) :
    s.registerRead (BitVec.ofNat 5 (8 + k.val)) = s.host.params[k] := by
  fin_cases k <;> exact if_pos h

theorem registerRead_result {s : State} (h : s.running = true) (k : Fin 6) :
    s.registerRead (BitVec.ofNat 5 (16 + k.val)) = s.host.results[k] := by
  fin_cases k <;> exact if_pos h

/-- Settles O33. -/
theorem positionReadsAreConsistent : Obligations.PositionReadsAreConsistent := by
  unfold Obligations.PositionReadsAreConsistent
  refine ⟨fun s h => ⟨?_, ?_⟩, fun s h r => registerRead_stopped h r, fun s h => ?_⟩
  · obtain ⟨hrun, -⟩ := id h
    refine ⟨_, congrArg Host.Outcome.next (readCycle_quiet h rfl), ?_, rfl⟩
    refine (congrArg₂ joinWords (if_pos hrun) (if_pos (by exact hrun))).trans (joinWords_lo_hi s.position.counter)
  · obtain ⟨hrun, -⟩ := id h
    refine ⟨_, congrArg Host.Outcome.next (readCycle_quiet h rfl), ?_, rfl⟩
    refine (congrArg₂ joinWords (if_pos hrun) (if_pos (by exact hrun))).trans (joinWords_lo_hi s.position.tracking)
  · dsimp only
    have hstatus : s.registerRead 2 = s.statusWord := if_pos h
    have hcause : s.registerRead 7 = s.haltCauseWord := if_pos h
    have hcmd : s.registerRead 5 = s.cmdWord := if_pos h
    obtain ⟨hhld, hpower, hblanked, hunused⟩ := statusWord_bits s
    obtain ⟨hfirst, hcauseLow, hmask, hcauseHigh⟩ := haltCauseWord_fields s
    obtain ⟨hbusy, hcode, hcmdUnused⟩ := cmdWord_fields s
    rw [hstatus, hcause, hcmd]
    refine ⟨if_pos h, if_pos h, ?_, statusWord_busy s, statusWord_overrun s, hhld, hpower, ?_, hunused, fun l => ?_, ?_,
      hcauseLow, hmask, hcauseHigh, if_pos h, if_pos h, hbusy, hcode, hcmdUnused, ?_, registerRead_param h,
      registerRead_result h, fun hevents => ?_, if_pos h, if_pos h, if_pos h, if_pos h, if_pos h, if_pos h⟩
    · rw [statusWord_op]
      cases s.control.op <;> rfl
    · rw [hblanked]
      exact blanked_iff s
    · rw [statusWord_detector]
      cases s.lanes[l].detector <;> rfl
    · rw [hfirst, Control.firstCode]
      cases s.control.firstCause with
      | none => rfl
      | some c => cases c <;> rfl
    · refine (if_pos h : s.registerRead 6 = s.host.resultCode.code).trans ?_
      cases s.host.resultCode <;> rfl
    · have hcount : s.registerRead 22 = BitVec.ofNat 16 s.events.records.length := if_pos h
      rw [hcount]
      exact toNat_ofNat_word (hevents.room.trans_lt (by decide))

end Sys2Proof.Machine
end
